-- ==== Sys2Proof/Word.lean ====
section
/-! DEFINITION. The word types of the FoxVision16 (spec/00_scope.md R3, R6) and their plainest arithmetic. -/

namespace Sys2Proof

/-- A machine word: an unsigned 16-bit number, the unit of memory, registers and fetch (R6, R61). -/
abbrev Word := BitVec 16

/-- Eight bits: the STATUS register, an opcode id, a control byte, a byte of a ROM image file. -/
abbrev Byte := BitVec 8

/-- `hi ++ lo`, the word whose bits 15:8 are `hi` and whose bits 7:0 are `lo` (R5). -/
def wordOfBytes (hi lo : Byte) : Word := BitVec.append hi lo

/-- Bits 15:8 of a word. -/
def highByte (w : Word) : Byte := w.extractLsb' 8 8

/-- Bits 7:0 of a word. -/
def lowByte (w : Word) : Byte := w.extractLsb' 0 8

/-- `zext_16` of an 8-bit value (R6). -/
def zext16 (b : Byte) : Word := b.zeroExtend 16

end Sys2Proof
end

