-- ==== Sys2Proof/Config.lean ====
section
/-! DEFINITION. What the spec leaves open: the types of the parameters that spec/00_scope.md R4 names (their values stand
in Sys2Proof/Machine/Platform.lean and Sys2Proof/Decode.lean), and the FREE VALUES, constants with no body of which
nothing can be proved but that they are values of their type. -/

namespace Sys2Proof

/-- `WORD0_LAYOUT` (R104, C1, decision D1): where the opcode id of a non-operand-encoded instruction stands in word 0. -/
inductive Word0Layout where
  /-- The id is bits 15:8 of word 0 of every instruction, the control byte bits 7:0. -/
  | fields
  /-- Word 0 of a non-operand-encoded instruction is the 16-bit pattern the source's listing prints. -/
  | literalLegacy
deriving DecidableEq, Repr

/-- `INDIRECT_MODE` (R113, decision D14): the meaning of operand type 11. -/
inductive IndirectMode where
  /-- The operand word is the address of the word that holds the address. -/
  | memoryIndirect
  /-- The operand word is the id of the general register that holds the address. -/
  | registerPointer
deriving DecidableEq, Repr

/-- `STACK_DIR` (R32, decision D19); in both, SP points at the word last pushed. -/
inductive StackDir where
  | descending
  | ascending
deriving DecidableEq, Repr

/-- `DBG_LGC_SRC` and `DBG_INP_DST` (R270, R272, decision D26): the register a debug opcode works on. -/
inductive DebugReg where
  | active
  | x
  | y
deriving DecidableEq, Repr

/-- What `PORT_DEVICE` may put on a port (R298). -/
inductive PortDevice where
  /-- Nothing is connected. -/
  | noDevice
  /-- The game controller of R300. -/
  | vf16Pad
  /-- A device the spec does not describe. -/
  | other
deriving DecidableEq, Repr, Inhabited

/-- The direction of a shift, for `SHIFT_GE16`. -/
inductive ShiftKind where
  | left
  | right
deriving DecidableEq, Repr

/-- FREE VALUE: the word at an address that nothing has written since reset (R62, R322, U10): one value per address,
fixed at reset. -/
opaque Config.unwrittenWord : Nat → Word

/-- FREE VALUE: what a read of a legacy memory-mapped I/O address returns (R69), by address and time. -/
opaque Config.mmioWord : Nat → Nat → Word

/-- FREE VALUE `SHIFT_GE16`: the result of SHL or SHR by 16 or more (R228, R229, D18), by direction, operands and time. -/
opaque Config.shiftGe16 : ShiftKind → Word → Word → Nat → Word

/-- FREE VALUE: by how many CPU cycles more than one CYC advances in a step (`CYCLES(instr)`, R4, R36, D21). DESIGN CHOICE
(log 13): a function of the step number and not of the instruction, which R350 leaves open. -/
opaque Config.extraCycles : Nat → Nat

/-- FREE VALUE `PORT_DEVICE`: the device the platform puts on a port (R298, D25). -/
opaque Config.portDevice : Fin 8 → PortDevice

/-- FREE VALUE: what is read at a time from a port with no device or with one the spec does not describe (R75, D25). -/
opaque Config.portState : Fin 8 → Nat → Word

/-- FREE VALUE: whether the user holds a button, by its bit of R300, of the pad on a port at a time. -/
opaque Config.padButton : Fin 8 → Nat → Nat → Bool

/-- FREE VALUE: bits 15:8 of what a VF16Pad presents on a port at a time (R300, U13). -/
opaque Config.padUpperByte : Fin 8 → Nat → Byte

/-- FREE VALUE: how many steps the display lets pass before its next VBlank signal, where one may be due in the step
numbered by the argument (R252, R296, D23). -/
opaque Config.vblankGap : Nat → Nat

/-- FREE VALUE: the user's answer to a debug prompt at a time, converted to a number; none where the user has not answered
(R272, U24). -/
opaque Config.consoleInput : Nat → Option Word

/-- FREE VALUE: the text DBG_MEM prints for a memory (R271: range and format are not stated). -/
opaque Config.dumpText : List (Nat × Word) → Nat → String

/-- FREE VALUE `VRAM_PACKING` (R68, D29): by how many more than two a word of VRAM holds pixels. -/
opaque Config.morePixelsPerWord : Fin 3

/-- FREE VALUE `VRAM_PACKING` (R68, D29): the place in its word, in units of four bits, of a word's n-th pixel. -/
opaque Config.pixelNibble : Nat → Fin 4

end Sys2Proof
end

