-- ==== Sys2Proof/Syntax.lean ====
section
/-! DEFINITION. The abstract syntax of the FoxVision16: the registers (spec/10_state.md R20), the operand forms
(spec/30_encoding.md R110 to R113) and the 53 instructions of spec/opcode_table.json (R118). -/

namespace Sys2Proof

/-- The seven registers, in the order of their ids 0x0 to 0x6 (R20). -/
inductive Reg where
  | x
  | y
  | pc
  | status
  | sp
  | cyc
  | em
deriving DecidableEq, Repr

/-- A source operand: a register (R110) or an immediate word (R111). -/
inductive Src where
  | reg (r : Reg)
  | imm (v : Word)
deriving DecidableEq, Repr

/-- A memory operand: direct (R112) or indirect (R113); `w` is the operand word. -/
inductive MemOp where
  | direct (w : Word)
  | indirect (w : Word)
deriving DecidableEq, Repr

/-- The 53 instructions. `addr` and `target` are word addresses; the two-operand ones name SRC first, DST second. -/
inductive Instr where
  | nop
  | lfm (addr : Word)
  | wtm (addr : Word)
  | sra (v : Word)
  | axy
  | sxy
  | mxy
  | dxy
  | equ
  | leq
  | jpz (target : Word)
  | jnz (target : Word)
  | jmp (target : Word)
  | clr
  | hlt
  | bsl
  | bsr
  | andLegacy
  | ora
  | xorLegacy
  | dwr (v : Word)
  | ilm
  | iwr
  | inc
  | dec
  | mov (src : Src) (dst : Reg)
  | str (src : Src) (dst : MemOp)
  | lod (src : MemOp) (dst : Reg)
  | cmp
  | jeq (target : Word)
  | jne (target : Word)
  | jlt (target : Word)
  | jgt (target : Word)
  | jle (target : Word)
  | jge (target : Word)
  | add (src : Src) (dst : Reg)
  | sub (src : Src) (dst : Reg)
  | mul (src : Src) (dst : Reg)
  | div (src : Src) (dst : Reg)
  | and (src : Src) (dst : Reg)
  | or (src : Src) (dst : Reg)
  | xor (src : Src) (dst : Reg)
  | shl (src : Src) (dst : Reg)
  | shr (src : Src) (dst : Reg)
  | push (src : Reg)
  | pop (dst : Reg)
  | wait (src : Src)
  | vblank
  | portIn (port : Word) (dst : Reg)
  | portOut (src : Reg) (port : Word)
  | dbgLgc
  | dbgMem
  | dbgInp
deriving DecidableEq, Repr

end Sys2Proof
end

