-- ==== Sys2Proof/Machine/RegisterSets.lean ====
section
/-! DEFINITION. Which instruction may name which register as an operand: the columns of the table of spec/10_state.md
R21 (decision D16), and the ids of R20. -/

namespace Sys2Proof

/-- The id of a register (R20). -/
def regId : Reg → Word
  | .x => 0
  | .y => 1
  | .pc => 2
  | .status => 3
  | .sp => 4
  | .cyc => 5
  | .em => 6

/-- The register an operand word names; a word of 7 or more names none (R20, R110). -/
def regOfId (w : Word) : Option Reg :=
  match w.toNat with
  | 0 => some .x
  | 1 => some .y
  | 2 => some .pc
  | 3 => some .status
  | 4 => some .sp
  | 5 => some .cyc
  | 6 => some .em
  | _ => none

/-- MOV's sources: every register but PC. -/
def isMovSource : Reg → Bool
  | .x | .y | .status | .sp | .cyc | .em => true
  | .pc => false

/-- MOV's destinations. -/
def isMovDest : Reg → Bool
  | .x | .y | .sp | .em => true
  | .pc | .status | .cyc => false

/-- The register sources of STR, the ALU instructions and WAIT. -/
def isMoiSource : Reg → Bool
  | .x | .y | .status => true
  | .pc | .sp | .cyc | .em => false

/-- The general registers: LOD's and the ALU instructions' destinations, and the register operands of IN and OUT. -/
def isGeneral : Reg → Bool
  | .x | .y => true
  | .pc | .status | .sp | .cyc | .em => false

/-- The registers PUSH reads and POP writes (R242). -/
def isStackReg : Reg → Bool
  | .x | .y | .status | .sp => true
  | .pc | .cyc | .em => false

/-- A source operand whose register, if it has one, is in the set. -/
def srcIn (allowed : Reg → Bool) : Src → Bool
  | .reg r => allowed r
  | .imm _ => true

end Sys2Proof
end

