-- ==== Sys2Proof/WellFormed.lean ====
section
/-! DEFINITION. The operand checks of spec/60_exceptions.md R283 point (4): register operands in the instruction's set
(spec/10_state.md R21), a port number of at most 7 (spec/20_memory.md R77), an SRA operand of 0 or 1 (R143). The operand
types of R115 are the constructors' own. -/

namespace Sys2Proof

/-- A port number is 0 to 7 (R74, R77). -/
def isPort (p : Word) : Bool := decide (p.toNat < 8)

/-- SRA selects X with 0 and Y with 1 (R143). -/
def isSraOperand (v : Word) : Bool := decide (v.toNat ≤ 1)

/-- The instruction's operands are ones the spec gives it. -/
def Instr.wf : Instr → Bool
  | .sra v => isSraOperand v
  | .mov src dst => srcIn isMovSource src && isMovDest dst
  | .str src _ => srcIn isMoiSource src
  | .lod _ dst => isGeneral dst
  | .add src dst | .sub src dst | .mul src dst | .div src dst | .and src dst | .or src dst | .xor src dst
  | .shl src dst | .shr src dst => srcIn isMoiSource src && isGeneral dst
  | .push src => isStackReg src
  | .pop dst => isStackReg dst
  | .wait src => srcIn isMoiSource src
  | .portIn port dst => isPort port && isGeneral dst
  | .portOut src port => isGeneral src && isPort port
  | .nop | .lfm _ | .wtm _ | .axy | .sxy | .mxy | .dxy | .equ | .leq | .jpz _ | .jnz _ | .jmp _ | .clr | .hlt | .bsl
  | .bsr | .andLegacy | .ora | .xorLegacy | .dwr _ | .ilm | .iwr | .inc | .dec | .cmp | .jeq _ | .jne _ | .jlt _
  | .jgt _ | .jle _ | .jge _ | .vblank | .dbgLgc | .dbgMem | .dbgInp => true

end Sys2Proof
end

