-- ==== Sys2Proof/Decode.lean ====
section
/-! DEFINITION. The decoder, total on every three words, and the encoder (spec/30_encoding.md R100 to R125). -/

namespace Sys2Proof

/-- `WORD0_LAYOUT` as the spec takes it (R104, decision D1). -/
def word0Layout : Word0Layout := .fields

/-- The operand types of R103. -/
inductive OpType where
  | reg
  | imm
  | dir
  | ind
deriving DecidableEq, Repr

/-- Why three words are no instruction. The id is that of the instruction whose control byte or operand is refused. -/
inductive DecodeError where
  /-- The opcode id, or the debug function, names no instruction (R122). -/
  | noOpcode
  /-- The control byte is not one the instruction allows (R107, R115). -/
  | controlByte (id : Byte)
  /-- A register operand is outside the instruction's set (R110, R21). -/
  | registerOperand (id : Byte)
  /-- The SRA operand is neither 0 nor 1 (R143). -/
  | sraOperand (id : Byte)
  /-- The port number is above 7 (R77). -/
  | portNumber (id : Byte)
deriving DecidableEq, Repr

/-- The code of an operand type (R103). -/
def opTypeBits : OpType → BitVec 2
  | .reg => 0
  | .imm => 1
  | .dir => 2
  | .ind => 3

/-- The operand type of a code (R103). -/
def opTypeOfBits (b : BitVec 2) : OpType :=
  match b.toNat with
  | 0 => .reg
  | 1 => .imm
  | 2 => .dir
  | _ => .ind

/-- Bits 15:8 of word 0: the opcode id (R101). -/
def fieldId (w0 : Word) : Byte := highByte w0

/-- Bits 7:0 of word 0: the operand interpretation control (R101). -/
def fieldCtl (w0 : Word) : Byte := lowByte w0

/-- Bits 1:0 of the control byte: the operand count (R102). -/
def fieldCnt (ctl : Byte) : BitVec 2 := ctl.extractLsb' 0 2

/-- Bits 3:2 of the control byte: the type of operand 1 (R102). -/
def fieldT1 (ctl : Byte) : BitVec 2 := ctl.extractLsb' 2 2

/-- Bits 5:4 of the control byte: the type of operand 2 (R102). -/
def fieldT2 (ctl : Byte) : BitVec 2 := ctl.extractLsb' 4 2

/-- Bits 7:6 of the control byte: reserved (R102). -/
def fieldRsv (ctl : Byte) : BitVec 2 := ctl.extractLsb' 6 2

/-- `rsv ++ t2 ++ t1 ++ cnt` with `rsv = 0` (R102). -/
def controlByte (cnt : BitVec 2) (t1 t2 : OpType) : Byte :=
  BitVec.append (BitVec.append (BitVec.append (0 : BitVec 2) (opTypeBits t2)) (opTypeBits t1)) cnt

/-- The ids of the non-operand-encoded instructions (R105, R119). -/
def isNonOeId (id : Byte) : Bool :=
  decide (id.toNat ≤ 0x18) || (decide (0x1C ≤ id.toNat) && decide (id.toNat ≤ 0x22)) || decide (id.toNat = 0x2F)

/-- The operand types an operand-encoded instruction takes, as (t1, t2) pairs (R115). For the one-operand instructions
t2 is 0. -/
def allowedTypes (id : Byte) : List (OpType × OpType) :=
  match id.toNat with
  | 0x19 => [(.reg, .reg), (.imm, .reg)]
  | 0x1A => [(.reg, .dir), (.imm, .dir), (.reg, .ind), (.imm, .ind)]
  | 0x1B => [(.dir, .reg), (.ind, .reg)]
  | 0x23 | 0x24 | 0x25 | 0x26 | 0x27 | 0x28 | 0x29 | 0x2A | 0x2B => [(.reg, .reg), (.imm, .reg)]
  | 0x2C | 0x2D => [(.reg, .reg)]
  | 0x2E => [(.reg, .reg), (.imm, .reg)]
  | 0x30 => [(.imm, .reg)]
  | 0x31 => [(.reg, .imm)]
  | _ => []

/-- The operand count of an operand-encoded instruction (R107). -/
def operandCount (id : Byte) : BitVec 2 :=
  match id.toNat with
  | 0x2C | 0x2D | 0x2E => 1
  | _ => 2

/-- The control byte is one the operand-encoded instruction allows (R107). -/
def controlAllowed (id ctl : Byte) : Bool :=
  decide (fieldRsv ctl = 0) && decide (fieldCnt ctl = operandCount id) &&
    (allowedTypes id).contains (opTypeOfBits (fieldT1 ctl), opTypeOfBits (fieldT2 ctl))

/-- A source operand word under the control byte's t1 (R110, R111). -/
def srcOfWord (ctl : Byte) (w : Word) : Option Src :=
  match opTypeOfBits (fieldT1 ctl) with
  | .imm => some (.imm w)
  | _ => (regOfId w).map .reg

/-- A memory operand word under a type field (R112, R113). -/
def memOfWord (t : BitVec 2) (w : Word) : MemOp :=
  match opTypeOfBits t with
  | .dir => .direct w
  | _ => .indirect w

/-- The operands of an instruction with a source and a destination register. -/
def srcDst (make : Src → Reg → Instr) (ctl : Byte) (w1 w2 : Word) : Option Instr :=
  (srcOfWord ctl w1).bind fun src => (regOfId w2).map (make src)

/-- The operand-encoded instruction of an id, its control byte allowed; `none` where an operand word names no register. -/
def oeInstr (id ctl : Byte) (w1 w2 : Word) : Option Instr :=
  match id.toNat with
  | 0x19 => srcDst .mov ctl w1 w2
  | 0x1A => (srcOfWord ctl w1).map (.str · (memOfWord (fieldT2 ctl) w2))
  | 0x1B => (regOfId w2).map (.lod (memOfWord (fieldT1 ctl) w1))
  | 0x23 => srcDst .add ctl w1 w2
  | 0x24 => srcDst .sub ctl w1 w2
  | 0x25 => srcDst .mul ctl w1 w2
  | 0x26 => srcDst .div ctl w1 w2
  | 0x27 => srcDst .and ctl w1 w2
  | 0x28 => srcDst .or ctl w1 w2
  | 0x29 => srcDst .xor ctl w1 w2
  | 0x2A => srcDst .shl ctl w1 w2
  | 0x2B => srcDst .shr ctl w1 w2
  | 0x2C => (regOfId w1).map .push
  | 0x2D => (regOfId w1).map .pop
  | 0x2E => (srcOfWord ctl w1).map .wait
  | 0x30 => (regOfId w2).map (.portIn w1)
  | 0x31 => (regOfId w1).map (.portOut · w2)
  | _ => none

/-- The non-operand-encoded instruction of an id; the control byte and the unused words are ignored (R106). -/
def nonOeInstr (id : Byte) (w1 : Word) : Option Instr :=
  match id.toNat with
  | 0x00 => some .nop
  | 0x01 => some (.lfm w1)
  | 0x02 => some (.wtm w1)
  | 0x03 => some (.sra w1)
  | 0x04 => some .axy
  | 0x05 => some .sxy
  | 0x06 => some .mxy
  | 0x07 => some .dxy
  | 0x08 => some .equ
  | 0x09 => some .leq
  | 0x0A => some (.jpz w1)
  | 0x0B => some (.jnz w1)
  | 0x0C => some (.jmp w1)
  | 0x0D => some .clr
  | 0x0E => some .hlt
  | 0x0F => some .bsl
  | 0x10 => some .bsr
  | 0x11 => some .andLegacy
  | 0x12 => some .ora
  | 0x13 => some .xorLegacy
  | 0x14 => some (.dwr w1)
  | 0x15 => some .ilm
  | 0x16 => some .iwr
  | 0x17 => some .inc
  | 0x18 => some .dec
  | 0x1C => some .cmp
  | 0x1D => some (.jeq w1)
  | 0x1E => some (.jne w1)
  | 0x1F => some (.jlt w1)
  | 0x20 => some (.jgt w1)
  | 0x21 => some (.jle w1)
  | 0x22 => some (.jge w1)
  | 0x2F => some .vblank
  | _ => none

/-- The debug function of a control byte under the id 0xC0 (R123). R123 does not state whether a debug opcode uses its operand
words: here it ignores both, whatever they hold. DESIGN CHOICE (log 14). -/
def debugInstr (ctl : Byte) : Option Instr :=
  match ctl.toNat with
  | 0 => some .dbgLgc
  | 1 => some .dbgMem
  | 2 => some .dbgInp
  | _ => none

/-- Check (4) of R283 on an instruction that was read: the reason an ill-formed one reports. -/
def checkOperands (id : Byte) (i : Instr) : Except DecodeError Instr :=
  if i.wf then .ok i
  else
    match i with
    | .sra _ => .error (.sraOperand id)
    | .portIn port _ | .portOut _ port =>
      if isPort port then .error (.registerOperand id) else .error (.portNumber id)
    | _ => .error (.registerOperand id)

/-- The instruction of an opcode id, a control byte and two operand words (R119). -/
def decodeFields (id ctl : Byte) (w1 w2 : Word) : Except DecodeError Instr :=
  match nonOeInstr id w1 with
  | some i => checkOperands id i
  | none =>
    if id = 0xC0 then
      match debugInstr ctl with
      | some i => .ok i
      | none => .error .noOpcode
    else if allowedTypes id = [] then .error .noOpcode
    else if controlAllowed id ctl then
      match oeInstr id ctl w1 w2 with
      | some i => checkOperands id i
      | none => .error (.registerOperand id)
    else .error (.controlByte id)

/-- Decoding under a layout of word 0. Under `literalLegacy` a non-operand-encoded instruction is the literal word
0x00`id`, and the words `id`·256 + ctl of those ids are no instruction (R104, C1). -/
def decodeWith (layout : Word0Layout) (w0 w1 w2 : Word) : Except DecodeError Instr :=
  match layout with
  | .fields => decodeFields (fieldId w0) (fieldCtl w0) w1 w2
  | .literalLegacy =>
    if fieldId w0 = 0 then
      if isNonOeId (fieldCtl w0) then decodeFields (fieldCtl w0) 0 w1 w2 else .error .noOpcode
    else if isNonOeId (fieldId w0) then .error .noOpcode
    else decodeFields (fieldId w0) (fieldCtl w0) w1 w2

/-- The decoder of the machine: the instruction of the three fetched words (R100, R119). -/
def decode (w0 w1 w2 : Word) : Except DecodeError Instr := decodeWith word0Layout w0 w1 w2

/-! ## The encoder -/

/-- The opcode id of an instruction (R118). -/
def opcodeId : Instr → Byte
  | .nop => 0x00
  | .lfm _ => 0x01
  | .wtm _ => 0x02
  | .sra _ => 0x03
  | .axy => 0x04
  | .sxy => 0x05
  | .mxy => 0x06
  | .dxy => 0x07
  | .equ => 0x08
  | .leq => 0x09
  | .jpz _ => 0x0A
  | .jnz _ => 0x0B
  | .jmp _ => 0x0C
  | .clr => 0x0D
  | .hlt => 0x0E
  | .bsl => 0x0F
  | .bsr => 0x10
  | .andLegacy => 0x11
  | .ora => 0x12
  | .xorLegacy => 0x13
  | .dwr _ => 0x14
  | .ilm => 0x15
  | .iwr => 0x16
  | .inc => 0x17
  | .dec => 0x18
  | .mov _ _ => 0x19
  | .str _ _ => 0x1A
  | .lod _ _ => 0x1B
  | .cmp => 0x1C
  | .jeq _ => 0x1D
  | .jne _ => 0x1E
  | .jlt _ => 0x1F
  | .jgt _ => 0x20
  | .jle _ => 0x21
  | .jge _ => 0x22
  | .add _ _ => 0x23
  | .sub _ _ => 0x24
  | .mul _ _ => 0x25
  | .div _ _ => 0x26
  | .and _ _ => 0x27
  | .or _ _ => 0x28
  | .xor _ _ => 0x29
  | .shl _ _ => 0x2A
  | .shr _ _ => 0x2B
  | .push _ => 0x2C
  | .pop _ => 0x2D
  | .wait _ => 0x2E
  | .vblank => 0x2F
  | .portIn _ _ => 0x30
  | .portOut _ _ => 0x31
  | .dbgLgc | .dbgMem | .dbgInp => 0xC0

/-- The operand type of a source operand. -/
def srcType : Src → OpType
  | .reg _ => .reg
  | .imm _ => .imm

/-- The operand word of a source operand. -/
def srcWord : Src → Word
  | .reg r => regId r
  | .imm v => v

/-- The operand type of a memory operand. -/
def memType : MemOp → OpType
  | .direct _ => .dir
  | .indirect _ => .ind

/-- The operand word of a memory operand. -/
def memWord : MemOp → Word
  | .direct w => w
  | .indirect w => w

/-- The canonical control byte of an instruction (R106, R115, R123). -/
def controlOf : Instr → Byte
  | .mov src _ | .add src _ | .sub src _ | .mul src _ | .div src _ | .and src _ | .or src _ | .xor src _ | .shl src _
  | .shr src _ => controlByte 2 (srcType src) .reg
  | .str src dst => controlByte 2 (srcType src) (memType dst)
  | .lod src _ => controlByte 2 (memType src) .reg
  | .push _ | .pop _ => controlByte 1 .reg .reg
  | .wait src => controlByte 1 (srcType src) .reg
  | .portIn _ _ => controlByte 2 .imm .reg
  | .portOut _ _ => controlByte 2 .reg .imm
  | .dbgMem => 1
  | .dbgInp => 2
  | .nop | .lfm _ | .wtm _ | .sra _ | .axy | .sxy | .mxy | .dxy | .equ | .leq | .jpz _ | .jnz _ | .jmp _ | .clr
  | .hlt | .bsl | .bsr | .andLegacy | .ora | .xorLegacy | .dwr _ | .ilm | .iwr | .inc | .dec | .cmp | .jeq _ | .jne _
  | .jlt _ | .jgt _ | .jle _ | .jge _ | .vblank | .dbgLgc => 0

/-- The operand words of an instruction, 0 where it uses none (R106, R107). -/
def operandWords : Instr → Word × Word
  | .lfm a | .wtm a | .jpz a | .jnz a | .jmp a | .jeq a | .jne a | .jlt a | .jgt a | .jle a | .jge a => (a, 0)
  | .sra v | .dwr v => (v, 0)
  | .mov src dst | .add src dst | .sub src dst | .mul src dst | .div src dst | .and src dst | .or src dst
  | .xor src dst | .shl src dst | .shr src dst => (srcWord src, regId dst)
  | .str src dst => (srcWord src, memWord dst)
  | .lod src dst => (memWord src, regId dst)
  | .push r | .pop r => (regId r, 0)
  | .wait src => (srcWord src, 0)
  | .portIn port dst => (port, regId dst)
  | .portOut src port => (regId src, port)
  | .nop | .axy | .sxy | .mxy | .dxy | .equ | .leq | .clr | .hlt | .bsl | .bsr | .andLegacy | .ora | .xorLegacy
  | .ilm | .iwr | .inc | .dec | .cmp | .vblank | .dbgLgc | .dbgMem | .dbgInp => (0, 0)

/-- Word 0 of an instruction under a layout. -/
def word0With (layout : Word0Layout) (i : Instr) : Word :=
  match layout with
  | .fields => wordOfBytes (opcodeId i) (controlOf i)
  | .literalLegacy =>
    if isNonOeId (opcodeId i) then wordOfBytes 0 (opcodeId i) else wordOfBytes (opcodeId i) (controlOf i)

/-- The three words of an instruction under a layout of word 0. -/
def encodeWith (layout : Word0Layout) (i : Instr) : Word × Word × Word := (word0With layout i, operandWords i)

/-- The canonical three words of an instruction. -/
def encode (i : Instr) : Word × Word × Word := encodeWith word0Layout i

/-! ## Availability by mode -/

/-- In which mode an instruction exists (R120). -/
inductive Availability where
  | legacy
  | extension
  | both
deriving DecidableEq, Repr

/-- The availability of the instruction with an opcode id, the column "mode" of R118 (R120, decision D6). -/
def availabilityOf (id : Byte) : Availability :=
  match id.toNat with
  | 0x00 | 0x0C | 0x0E => .both
  | 0x30 | 0x31 => .extension
  | 0xC0 => .legacy
  | n => if n ≤ 0x18 then .legacy else .both

/-! ## The host's view -/

/-- Word `k` of an instruction whose bits, numbered from the least significant bit of its first word, are `w`. -/
def tableWord (w k : Nat) : Word := BitVec.ofNat 16 (w / 65536 ^ k)

/-- The instruction the decoder reads from the low `nbits` bits of `w`, every further bit 0. -/
def decodeTableWord (nbits w : Nat) : Option Instr :=
  let v := w % 2 ^ nbits
  match decode (tableWord v 0) (tableWord v 1) (tableWord v 2) with
  | .ok i => some i
  | .error _ => none

end Sys2Proof
end

