-- ==== Sys2Proof/Machine/Agents.lean ====
section
/-! DEFINITION. The agents beside the CPU (spec/00_scope.md R9) as it meets them: the VBlank signal of the display
(spec/45_timing.md R252, spec/60_exceptions.md R296) and the devices on the ports (R298 to R300). -/

namespace Sys2Proof.Machine

/-! ## The display's signal -/

/-- How many steps pass, from the step numbered `now` on, before the display raises its next VBlank signal. -/
def vblankDue : Nat → Nat
  | 0 => Config.vblankGap 0
  | now + 1 => if vblankDue now = 0 then Config.vblankGap (now + 1) else vblankDue now - 1

/-- The display raises its VBlank signal in the step numbered `now`. When is free, but for the fairness that R252 has a
model assume of the display (decision D23, log 12): a next signal is always due. -/
def vblankRaised (now : Nat) : Bool := decide (vblankDue now = 0)

/-- A signal is raised infinitely often: the fairness of R252. -/
def FairDisplay (signal : Nat → Bool) : Prop := ∀ now, ∃ later, now ≤ later ∧ signal later = true

/-! ## The VF16Pad -/

/-- The buttons of a VF16Pad that are held (R300). -/
structure Pad where
  up : Bool
  down : Bool
  left : Bool
  right : Bool
  a : Bool
  b : Bool
  start : Bool
  select : Bool
deriving DecidableEq, Repr

/-- The word IN reads from a VF16Pad; the source assigns no meaning to bits 15:8, here `high` (R300). -/
def padWord (p : Pad) (high : Byte) : Word :=
  wordOfBytes high
    (BitVec.ofBoolListLE [p.up, p.down, p.left, p.right, p.a, p.b, p.start, p.select])

/-- The buttons in a word read from a VF16Pad (R300). -/
def padOfWord (w : Word) : Pad where
  up := w.getLsbD 0
  down := w.getLsbD 1
  left := w.getLsbD 2
  right := w.getLsbD 3
  a := w.getLsbD 4
  b := w.getLsbD 5
  start := w.getLsbD 6
  select := w.getLsbD 7

/-- The buttons the user holds on the pad of a port at a time. -/
def padHeld (port : Fin 8) (now : Nat) : Pad where
  up := Config.padButton port now 0
  down := Config.padButton port now 1
  left := Config.padButton port now 2
  right := Config.padButton port now 3
  a := Config.padButton port now 4
  b := Config.padButton port now 5
  start := Config.padButton port now 6
  select := Config.padButton port now 7

/-! ## The devices on the ports -/

/-- The state a device presents on a port at a time (R75, R299): a VF16Pad its buttons and an unassigned upper byte, any
other device and a port without one a free word. -/
def deviceState (device : PortDevice) (port : Fin 8) (now : Nat) : Word :=
  match device with
  | .vf16Pad => padWord (padHeld port now) (Config.padUpperByte port now)
  | .noDevice | .other => Config.portState port now

/-- The state of the device that is configured on a port (R298). -/
def portPresents (port : Fin 8) (now : Nat) : Word := deviceState (Config.portDevice port) port now

end Sys2Proof.Machine
end

