-- ==== Sys2Proof/Machine/Platform.lean ====
section
/-! DEFINITION. The values of the platform parameters that spec/00_scope.md R4 names, as the spec takes them.
`WORD0_LAYOUT` is `Sys2Proof.word0Layout`, in Sys2Proof/Decode.lean. -/

namespace Sys2Proof.Machine

/-- `RESET_PC` (R25, decision D27). -/
def resetPc : Word := 0x0000

/-- `ROM_WORDS` in legacy mode (R65). -/
def romWordsLegacy : Nat := 0x1000

/-- `ROM_WORDS` in extension mode: the value of the described implementation, at most 0x8000 (R67, decision D28). -/
def romWordsExtension : Nat := 0x1000

/-- `LEGACY_MMIO` (R69, decision D28): the legacy memory-mapped I/O addresses. -/
def legacyMmio : List Word := []

/-- The lowest address of VRAM (R65, R68). -/
def vramBase : Nat := 0xEC78

/-- `INDIRECT_MODE` (R113, decision D14). -/
def indirectMode : IndirectMode := .memoryIndirect

/-- `STACK_DIR` (R32, decision D19). -/
def stackDir : StackDir := .descending

/-- `LEGACY_SHIFT`: the shift distance of BSL and BSR (R155, R156, decision D9). -/
def legacyShift : Nat := 1

/-- `DBG_LGC_SRC` (R270, decision D26). -/
def dbgLgcSrc : DebugReg := .active

/-- `DBG_INP_DST` (R272, decision D26). -/
def dbgInpDst : DebugReg := .active

/-- The length in bytes of the extended image header before the payload (R332, C11, decision D37): 17, the sum of the
listed field sizes; 16 stands for a one-byte mapper field. -/
def extHeaderLength : Nat := 17

end Sys2Proof.Machine
end

