-- ==== Sys2Proof/Machine/State.lean ====
section
/-! DEFINITION. The state of the machine (spec/10_state.md), the reasons a step can stop, and the state after reset. -/

namespace Sys2Proof.Machine

/-- Memory (spec/20_memory.md R60, R61): the words the loader or the CPU has written, by word address, in canonical form:
addresses strictly rising and below 65536, no address twice. An address that is not listed has no value of its own
(`Memory.read` says what it reads as), so equal memories are equal data. -/
structure Memory where
  cells : List (Nat × Word)
deriving DecidableEq, Repr

/-- The stall state of the CPU (R43a), and its block inside DBG_INP (R272). The fourth state of R43, halted, is STATUS bit 6
(R31). -/
inductive Stall where
  /-- Fetching and executing instructions. -/
  | running
  /-- Inside WAIT (R250): `start` is the CYC captured when it began, `n` the cycles asked for. -/
  | waiting (start n : Word)
  /-- Inside VBLANK (R252). -/
  | vblankWait
  /-- Inside DBG_INP, the user prompted and not yet answering (R272). -/
  | prompting
deriving DecidableEq, Repr

/-- What a program does to the host's debug console (R302). -/
inductive ConsoleEvent where
  /-- DBG_LGC logged a character (R270). -/
  | logged (c : Char)
  /-- DBG_MEM printed a dump of memory (R271). -/
  | dumped (text : String)
  /-- DBG_INP prompted the user (R272). -/
  | prompted
  /-- The user's answer to the prompt was read as the number `answer` (R272). -/
  | answered (answer : Word)
deriving DecidableEq, Repr

/-- What a program puts out (R340). -/
inductive OutputEvent where
  /-- OUT sent a word to the device on a port (R76). -/
  | portWrite (port : Fin 8) (value : Word)
  /-- A debug opcode used the console (R302). -/
  | console (event : ConsoleEvent)
deriving DecidableEq, Repr

/-- What the other agents of R9 present to the CPU in a step: the live state of the port devices (R43c, R299), the VBlank
signal of this cycle (R43b; an event, no pending bit) and the number the user answers a prompt with, if the user answers in
this step (R272). -/
structure Inputs where
  ports : Vector Word 8
  vblank : Bool
  typed : Option Word
deriving DecidableEq, Repr

/-- The inputs of the step numbered `now`, drawn from free values. -/
def inputsAt (now : Nat) : Inputs where
  ports := Vector.ofFn fun p => portPresents p now
  vblank := vblankRaised now
  typed := Config.consoleInput now

/-- The machine's state. -/
structure State where
  /-- General register 1 (R22). -/
  x : Word
  /-- General register 2 (R22). -/
  y : Word
  /-- The program counter, a word address (R23). -/
  pc : Word
  /-- STATUS (R26): bit 0 EQ, 1 LT, 2 GT, 3 NE, 4 AR, 5 DZ, 6 HF, 7 reserved. -/
  status : Byte
  /-- The stack pointer (R32). -/
  sp : Word
  /-- The cycle counter (R34). -/
  cyc : Word
  /-- The mode register (R37). -/
  em : Word
  /-- The 65,536 words of memory (R41). -/
  mem : Memory
  /-- Running, or stalled in WAIT, VBLANK (R43a) or DBG_INP (R272). -/
  stall : Stall
  /-- "The sequence of port writes and console output" so far, oldest first (R340, R76). That it is one sequence, which keeps
  the order between a port write and a console event, is how the model reads R340: DESIGN CHOICE (log 26). -/
  outputs : List OutputEvent
  /-- What the devices, the display and the user present in this step (R43). -/
  inputs : Inputs
  /-- The model's own: the number of steps taken, the argument of the free values. -/
  now : Nat
deriving DecidableEq, Repr

/-- The machine has no exception, trap or fault (spec/60_exceptions.md R280): no step ends in one. -/
inductive Fault where
deriving DecidableEq, Repr

/-- Why a step has no meaning: each is a `refuse` of the spec (R287). All are safe: nothing can be proved of a program
that reaches one. -/
inductive Refusal where
  /-- Raised by exec for an instruction with no meaning yet. Safe. -/
  | notModelled (mnemonic : String)
  /-- Raised by the fetch: word 0 names no instruction (R122). Safe. -/
  | noSuchOpcode
  /-- Raised by a legacy-only instruction outside legacy mode (R120, decision D6). Safe. -/
  | legacyOnly
  /-- Raised by IN and OUT outside extension mode (R120, R262). Safe. -/
  | extensionOnly
  /-- Raised by the fetch: a control byte the instruction does not allow (R107). Safe. -/
  | controlByte
  /-- Raised by the fetch, and by a meaning given an ill-formed instruction: a register outside the set (R21, R110). Safe. -/
  | registerOperand
  /-- Raised by the fetch, and by SRA given an ill-formed operand: neither 0 nor 1 (R143). Safe. -/
  | sraOperand
  /-- Raised by the fetch, and by IN and OUT given an ill-formed operand: a port above 7 (R77). Safe. -/
  | portNumber
  /-- Raised by MOV to EM of a value other than 0 and 1 (R38). Safe. -/
  | emValue
  /-- Raised by every store whose address is in the ROM range (R63). Safe. -/
  | romStore
deriving DecidableEq, Repr

/-- The outcome of an instruction. -/
abbrev Result := Host.Outcome State Fault Refusal

/-- The machine right after reset (R44, R321), no ROM image loaded. `x`, `y`, `sp` and the bits of `status` but bit 6 have
no stated value: zero is the model's choice. -/
def State.reset : State where
  x := 0
  y := 0
  pc := resetPc
  status := 0
  sp := 0
  cyc := 0
  em := 0
  mem := ⟨[]⟩
  stall := .running
  outputs := []
  inputs := inputsAt 0
  now := 0

end Sys2Proof.Machine
end

