-- ==== Sys2Proof/Machine/Flags.lean ====
section
/-! DEFINITION. The STATUS register: its bits (spec/10_state.md R26), and what each flag-writing instruction writes
(R28). -/

namespace Sys2Proof.Machine

/-- The numbers of the STATUS bits (R26). -/
def bitEQ : Nat := 0
def bitLT : Nat := 1
def bitGT : Nat := 2
def bitNE : Nat := 3
def bitAR : Nat := 4
def bitDZ : Nat := 5
def bitHF : Nat := 6

/-- STATUS with bit `i` made `b`. -/
def withBit (st : Byte) (i : Nat) (b : Bool) : Byte :=
  if b then st ||| (1#8 <<< i) else st &&& ~~~(1#8 <<< i)

/-- Bit `i` of STATUS. -/
def State.flag (s : State) (i : Nat) : Bool := s.status.getLsbD i

/-- The CPU is halted: `STATUS[6] = 1` (R31). -/
def State.halted (s : State) : Bool := s.flag bitHF

/-- EQU: bit 0 by equality, no other bit (R148). -/
def equStatus (x y : Word) (st : Byte) : Byte := withBit st bitEQ (x == y)

/-- Bits 1, 2 and 3 of an unsigned comparison of X with Y, as LEQ and CMP write them (R28). -/
def orderStatus (x y : Word) (st : Byte) : Byte :=
  withBit (withBit (withBit st bitLT (x.ult y)) bitGT (y.ult x)) bitNE (x != y)

/-- LEQ: bit 0 is the less-than result (R149). -/
def leqStatus (x y : Word) (st : Byte) : Byte := withBit (orderStatus x y st) bitEQ (x.ult y)

/-- CMP: bit 0 is equality (R200). -/
def cmpStatus (x y : Word) (st : Byte) : Byte := withBit (orderStatus x y st) bitEQ (x == y)

/-- DXY and DIV: a zero divisor sets bit 5, another leaves it as it was (R147, R224, R281). -/
def divStatus (divisor : Word) (st : Byte) : Byte := if divisor = 0 then withBit st bitDZ true else st

end Sys2Proof.Machine
end

