-- ==== Sys2Proof/Machine/Ops.lean ====
section
/-! DEFINITION. The named operations over memory, registers and time. The machine has no exception to take or to return
from (spec/60_exceptions.md R280, R284, R285), so there is no such operation. -/

namespace Sys2Proof.Machine

/-! ## Memory -/

/-- The word written last at an address, if one was. -/
def lookupCell : List (Nat × Word) → Nat → Option Word
  | [], _ => none
  | (b, w) :: rest, a => if b = a then some w else lookupCell rest a

/-- The cells after a write, kept in rising order. -/
def writeCell : List (Nat × Word) → Nat → Word → List (Nat × Word)
  | [], a, v => [(a, v)]
  | (b, w) :: rest, a, v =>
    if a < b then (a, v) :: (b, w) :: rest
    else if a = b then (a, v) :: rest
    else (b, w) :: writeCell rest a v

/-- The word at an address (R62); one that nothing has written reads as a free value, fixed at reset (R322, U10). -/
def Memory.read (m : Memory) (a : Nat) : Word := (lookupCell m.cells a).getD (Config.unwrittenWord a)

/-- Memory with the word at an address replaced (R63). -/
def Memory.write (m : Memory) (a : Nat) (v : Word) : Memory := ⟨writeCell m.cells a v⟩

/-- Addresses strictly rising from `low` on. -/
def risingFrom : Nat → List (Nat × Word) → Bool
  | _, [] => true
  | low, (a, _) :: rest => decide (low ≤ a) && risingFrom (a + 1) rest

/-- The canonical form: addresses strictly rising, all of them addresses of the machine. -/
def Memory.wf (m : Memory) : Bool := risingFrom 0 m.cells && m.cells.all fun c => decide (c.1 < 65536)

/-- The words of a list written at consecutive addresses from `a` on (the loader's copy, R330). -/
def Memory.writeAll (m : Memory) (a : Nat) : List Word → Memory
  | [] => m
  | w :: rest => (m.write a w).writeAll (a + 1) rest

/-! ## Register updates -/

def State.setX (s : State) (v : Word) : State := { s with x := v }
def State.setY (s : State) (v : Word) : State := { s with y := v }
def State.setPc (s : State) (v : Word) : State := { s with pc := v }
def State.setStatus (s : State) (v : Byte) : State := { s with status := v }
def State.setSp (s : State) (v : Word) : State := { s with sp := v }
def State.setEm (s : State) (v : Word) : State := { s with em := v }
def State.setMem (s : State) (v : Memory) : State := { s with mem := v }
def State.setStall (s : State) (v : Stall) : State := { s with stall := v }

/-! ## Outputs -/

/-- One more event in the sequence of outputs (R340). -/
def State.output (s : State) (e : OutputEvent) : State := { s with outputs := s.outputs ++ [e] }

/-- An event on the console (R302, R340). -/
def State.emit (s : State) (e : ConsoleEvent) : State := s.output (.console e)

/-- `PortWrite` (R76): the output event, and nothing of the CPU's. -/
def State.sendPort (s : State) (p : Fin 8) (v : Word) : State := s.output (.portWrite p v)

/-- The port and the word of a port write. -/
def OutputEvent.asPortWrite : OutputEvent → Option (Fin 8 × Word)
  | .portWrite p v => some (p, v)
  | .console _ => none

/-- The event on the console. -/
def OutputEvent.asConsole : OutputEvent → Option ConsoleEvent
  | .portWrite _ _ => none
  | .console e => some e

/-- The port writes among the outputs, oldest first (R76). -/
def State.portWrites (s : State) : List (Fin 8 × Word) := s.outputs.filterMap OutputEvent.asPortWrite

/-- The console events among the outputs, oldest first (R302). -/
def State.console (s : State) : List ConsoleEvent := s.outputs.filterMap OutputEvent.asConsole

/-! ## Control flow -/

/-- The address of the following instruction, modulo 65536 (R24). -/
def State.nextPc (s : State) : Word := s.pc + 3

/-- `pc <- next`. -/
def State.advance (s : State) : State := s.setPc s.nextPc

/-- An instruction that completes with `pc <- next`. -/
def State.done (s : State) : Result := .next s.advance

/-- A jump: to the target when taken, else to the following instruction (R150, R201). -/
def State.jumpIf (s : State) (taken : Bool) (target : Word) : Result :=
  .next (s.setPc (if taken then target else s.nextPc))

/-! ## The memory map and data accesses -/

/-- The number of words of the ROM range in the present mode (R65, R67). -/
def State.romWords (s : State) : Nat := if s.em = 1 then romWordsExtension else romWordsLegacy

/-- An address in the ROM range. -/
def State.inRom (s : State) (a : Word) : Bool := decide (a.toNat < s.romWords)

/-- An address in VRAM, in both modes (R68). -/
def inVram (a : Word) : Bool := decide (vramBase ≤ a.toNat)

/-- A legacy memory-mapped I/O address: in legacy mode only (R67, R69). -/
def State.isMmio (s : State) (a : Word) : Bool := decide (s.em = 0) && legacyMmio.contains a

/-- `MemRead` (R62, R69). -/
def State.memRead (s : State) (a : Word) : Word :=
  if s.isMmio a then Config.mmioWord a.toNat s.now else s.mem.read a.toNat

/-- `MemWrite` outside ROM (R63, R69). -/
def State.memWrite (s : State) (a v : Word) : State :=
  if s.isMmio a then s else s.setMem (s.mem.write a.toNat v)

/-- A store, the last effect of an instruction but for the pc: into ROM it is refused (R63), else it is made. -/
def State.storeDone (s : State) (a v : Word) : Result :=
  if s.inRom a then .refused .romStore else (s.memWrite a v).done

/-! ## Modes -/

/-- An instruction of legacy mode (R120). -/
def State.legacyOnly (s : State) (k : Result) : Result := if s.em = 0 then k else .refused .legacyOnly

/-- An instruction of extension mode (R120). -/
def State.extensionOnly (s : State) (k : Result) : Result := if s.em = 1 then k else .refused .extensionOnly

/-! ## Time -/

/-- `cycles` CPU cycles pass (R34), the step ends, and the other agents present new inputs (R9). -/
def State.elapse (s : State) (cycles : Nat) : State :=
  { s with cyc := s.cyc + BitVec.ofNat 16 cycles, now := s.now + 1, inputs := inputsAt (s.now + 1) }

/-- The cycles of a step that completes an instruction: at least one, how many more is free (R36, D21). DESIGN CHOICE (log
13): drawn by the step number alone, so two instructions that complete at the same step number of two runs take equally many. -/
def State.instrCycles (s : State) : Nat := 1 + Config.extraCycles s.now

/-- The end of a step in which an instruction was executed. An instruction that stalls the CPU has not completed: its
cycles are counted one by one while it is stalled. -/
def State.retire (s : State) : State := s.elapse (if s.stall = .running then s.instrCycles else 0)

/-- A stalled instruction completes: the CPU runs on at the following instruction (R250, R252). -/
def State.resume (s : State) : State := (s.setStall .running).advance

end Sys2Proof.Machine
end

