-- ==== Sys2Proof/Machine/Operands.lean ====
section
/-! DEFINITION. The active register (spec/10_state.md R27) and every operand form of spec/30_encoding.md R110 to R114. -/

namespace Sys2Proof.Machine

/-! ## The active register -/

/-- `STATUS[4]` selects Y (R27). -/
def State.yActive (s : State) : Bool := s.flag bitAR

/-- `A`, the active register (R27). -/
def State.active (s : State) : Word := if s.yActive then s.y else s.x

/-- `I`, the inactive register (R27). -/
def State.inactive (s : State) : Word := if s.yActive then s.x else s.y

/-- `A <- v`. -/
def State.setActive (s : State) (v : Word) : State := if s.yActive then s.setY v else s.setX v

/-! ## Registers by name -/

/-- `x[r]`; STATUS reads as `zext_16(STATUS)` (R29, R114). -/
def State.readReg (s : State) : Reg → Word
  | .x => s.x
  | .y => s.y
  | .pc => s.pc
  | .status => zext16 s.status
  | .sp => s.sp
  | .cyc => s.cyc
  | .em => s.em

/-- `x[r] <- v`; STATUS takes `v[7:0]` (R29, R114). PC and CYC are in no instruction's set of destinations (R21). -/
def State.writeReg (s : State) (r : Reg) (v : Word) : State :=
  match r with
  | .x => s.setX v
  | .y => s.setY v
  | .status => s.setStatus (lowByte v)
  | .sp => s.setSp v
  | .em => s.setEm v
  | .pc | .cyc => s

/-- Goes on where a register is in the instruction's set (R21, R110). -/
def requireReg (inSet : Bool) (k : Result) : Result := if inSet then k else .refused .registerOperand

/-- `SrcVal` for REG and IMM (R110, R111, R114): goes on with the value. -/
def State.withSource (s : State) (allowed : Reg → Bool) (src : Src) (k : Word → Result) : Result :=
  match src with
  | .imm v => k v
  | .reg r => requireReg (allowed r) (k (s.readReg r))

/-- The address a DIR or IND operand names (R112, R113): goes on with it. -/
def State.withAddress (s : State) (m : MemOp) (k : Word → Result) : Result :=
  match m with
  | .direct w => k w
  | .indirect w =>
    match indirectMode with
    | .memoryIndirect => k (s.memRead w)
    | .registerPointer =>
      match regOfId w with
      | some r => requireReg (isGeneral r) (k (s.readReg r))
      | none => .refused .registerOperand

/-- A port number of 0 to 7 (R74, R77): goes on with it. -/
def withPort (p : Word) (k : Fin 8 → Result) : Result :=
  if h : p.toNat < 8 then k ⟨p.toNat, h⟩ else .refused .portNumber

/-- The register a debug opcode reads (R270, R272). -/
def State.readDebugReg (s : State) : DebugReg → Word
  | .active => s.active
  | .x => s.x
  | .y => s.y

/-- The register a debug opcode writes (R272). -/
def State.writeDebugReg (s : State) (r : DebugReg) (v : Word) : State :=
  match r with
  | .active => s.setActive v
  | .x => s.setX v
  | .y => s.setY v

end Sys2Proof.Machine
end

