-- ==== Sys2Proof/Machine/Alu.lean ====
section
/-! DEFINITION. The multi-operand ALU instructions V1.6 (spec/43_moi_alu.md). -/

namespace Sys2Proof.Machine

/-- The operands of R220: goes on with `d`, the value of DST, and `s`, the value of SRC. -/
def State.withAlu (st : State) (src : Src) (dst : Reg) (k : Word → Word → Result) : Result :=
  st.withSource isMoiSource src fun s => requireReg (isGeneral dst) (k (st.readReg dst) s)

/-- An ALU instruction that writes a result and no flag. -/
def State.alu (st : State) (src : Src) (dst : Reg) (f : Word → Word → Word) : Result :=
  st.withAlu src dst fun d s => (st.writeReg dst (f d s)).done

/-- R221. -/
def execAdd (src : Src) (dst : Reg) (s : State) : Result := s.alu src dst fun d v => d + v

/-- R222: DST - SRC. -/
def execSub (src : Src) (dst : Reg) (s : State) : Result := s.alu src dst fun d v => d - v

/-- R223. -/
def execMul (src : Src) (dst : Reg) (s : State) : Result := s.alu src dst fun d v => d * v

/-- R224 (decision D8): unsigned; a zero divisor writes 0 and sets bit 5. -/
def execDiv (src : Src) (dst : Reg) (s : State) : Result :=
  s.withAlu src dst fun d v =>
    ((s.writeReg dst (if v = 0 then 0 else d / v)).setStatus (divStatus v s.status)).done

/-- R225. -/
def execAnd (src : Src) (dst : Reg) (s : State) : Result := s.alu src dst fun d v => d &&& v

/-- R226. -/
def execOr (src : Src) (dst : Reg) (s : State) : Result := s.alu src dst fun d v => d ||| v

/-- R227. -/
def execXor (src : Src) (dst : Reg) (s : State) : Result := s.alu src dst fun d v => d ^^^ v

/-- R228: a count of 16 or more gives a free value (`SHIFT_GE16`, decision D18). -/
def shiftLeft (d count : Word) (now : Nat) : Word :=
  if count.toNat ≤ 15 then d <<< count.toNat else Config.shiftGe16 .left d count now

/-- R229: logical; a count of 16 or more gives a free value (`SHIFT_GE16`, decision D18). -/
def shiftRight (d count : Word) (now : Nat) : Word :=
  if count.toNat ≤ 15 then d >>> count.toNat else Config.shiftGe16 .right d count now

/-- R228. -/
def execShl (src : Src) (dst : Reg) (s : State) : Result := s.alu src dst fun d v => shiftLeft d v s.now

/-- R229. -/
def execShr (src : Src) (dst : Reg) (s : State) : Result := s.alu src dst fun d v => shiftRight d v s.now

end Sys2Proof.Machine
end

