-- ==== Sys2Proof/Machine/Compare.lean ====
section
/-! DEFINITION. The extended comparison and jump instructions V1.5 (spec/42_ecji.md), available in both modes. -/

namespace Sys2Proof.Machine

/-- R200. -/
def execCmp (s : State) : Result := (s.setStatus (cmpStatus s.x s.y s.status)).done

/-- R201: bit 0. -/
def execJeq (target : Word) (s : State) : Result := s.jumpIf (s.flag bitEQ) target

/-- R202: bit 3. -/
def execJne (target : Word) (s : State) : Result := s.jumpIf (s.flag bitNE) target

/-- R203: bit 1. -/
def execJlt (target : Word) (s : State) : Result := s.jumpIf (s.flag bitLT) target

/-- R204: bit 2. -/
def execJgt (target : Word) (s : State) : Result := s.jumpIf (s.flag bitGT) target

/-- R205: bit 1 or bit 0 (decision D35). -/
def execJle (target : Word) (s : State) : Result := s.jumpIf (s.flag bitLT || s.flag bitEQ) target

/-- R206: bit 2 or bit 0 (decision D35). -/
def execJge (target : Word) (s : State) : Result := s.jumpIf (s.flag bitGT || s.flag bitEQ) target

end Sys2Proof.Machine
end

