-- ==== Sys2Proof/Machine/DataMove.lean ====
section
/-! DEFINITION. The multi-operand data moves V1.4 (spec/41_moi_data.md, decision D15). -/

namespace Sys2Proof.Machine

/-- Writing EM: only 0 and 1 have a meaning (R38, R181). -/
def emAccepts (dst : Reg) (v : Word) : Bool := decide (dst ≠ .em) || decide (v = 0) || decide (v = 1)

/-- R181. -/
def execMov (src : Src) (dst : Reg) (s : State) : Result :=
  s.withSource isMovSource src fun v =>
    requireReg (isMovDest dst) (if emAccepts dst v then (s.writeReg dst v).done else .refused .emValue)

/-- R182. -/
def execStr (src : Src) (dst : MemOp) (s : State) : Result :=
  s.withSource isMoiSource src fun v => s.withAddress dst fun ea => s.storeDone ea v

/-- R183. -/
def execLod (src : MemOp) (dst : Reg) (s : State) : Result :=
  requireReg (isGeneral dst) (s.withAddress src fun ea => (s.writeReg dst (s.memRead ea)).done)

end Sys2Proof.Machine
end

