-- ==== Sys2Proof/Machine/Debug.lean ====
section
/-! DEFINITION. The extension debug opcodes (spec/47_edo.md; decision D26), in legacy mode only, the cycles of a CPU blocked
in DBG_INP, and the character encoding of the debug console (R273). -/

namespace Sys2Proof.Machine

/-- The character a code prints as; a code outside the table prints `?` (R273). -/
def charOf (code : Word) : Char :=
  let n := code.toNat
  if n = 0 then '#'
  else if n ≤ 26 then Char.ofNat (64 + n)
  else if n = 27 then '-'
  else if n ≤ 37 then Char.ofNat (20 + n)
  else if n = 38 then '\n'
  else if n = 39 then ' '
  else '?'

/-- The code a character read in is converted to; an unknown one becomes 40 (R273). -/
def codeOf (c : Char) : Word :=
  let n := c.toNat
  if c = '#' then 0
  else if 65 ≤ n ∧ n ≤ 90 then BitVec.ofNat 16 (n - 64)
  else if c = '-' then 27
  else if 48 ≤ n ∧ n ≤ 57 then BitVec.ofNat 16 (n - 20)
  else if c = '\n' then 38
  else if c = ' ' then 39
  else 40

/-- R270: logs the character of the active register (`DBG_LGC_SRC`). -/
def execDbgLgc (s : State) : Result := s.legacyOnly (s.emit (.logged (charOf (s.readDebugReg dbgLgcSrc)))).done

/-- R271: prints a dump of memory, its range and format free. -/
def execDbgMem (s : State) : Result := s.legacyOnly (s.emit (.dumped (Config.dumpText s.mem.cells s.now))).done

/-- The user's answer goes to the active register (`DBG_INP_DST`, R272). -/
def State.takeAnswer (s : State) (v : Word) : State := (s.emit (.answered v)).writeDebugReg dbgInpDst v

/-- The user is prompted: an answer in this step is taken and the instruction completes; without one the CPU blocks, pc and
the registers unchanged (R272). -/
def State.promptUser (s : State) : State :=
  match s.inputs.typed with
  | some v => ((s.emit .prompted).takeAnswer v).advance
  | none => (s.emit .prompted).setStall .prompting

/-- R272. -/
def execDbgInp (s : State) : Result := s.legacyOnly (.next s.promptUser)

/-- One CPU cycle of a CPU blocked in DBG_INP: until the user answers pc and the registers are unchanged (R272), and CYC
counts (R34, log 14). -/
def State.promptCycle (s : State) : State :=
  match s.inputs.typed with
  | some v => (s.takeAnswer v).resume.elapse s.instrCycles
  | none => s.elapse 1

end Sys2Proof.Machine
end

