-- ==== Sys2Proof/Machine/Legacy.lean ====
section
/-! DEFINITION. The base instructions V1.0, V1.1 and V1.2 (spec/40_legacy_v1_0_to_v1_2.md). -/

namespace Sys2Proof.Machine

/-! ## The shapes of the family -/

/-- Legacy mode only: the active register takes a value (R170, R171). -/
def State.toActive (s : State) (v : Word) : Result := s.legacyOnly (s.setActive v).done

/-- Legacy mode only: STATUS takes a value. -/
def State.toStatus (s : State) (st : Byte) : Result := s.legacyOnly (s.setStatus st).done

/-! ## V1.0 -/

/-- R140. -/
def execNop (s : State) : Result := s.done

/-- R141. -/
def execLfm (addr : Word) (s : State) : Result := s.toActive (s.memRead addr)

/-- R142. -/
def execWtm (addr : Word) (s : State) : Result := s.legacyOnly (s.storeDone addr s.active)

/-- R143 (decision D12). -/
def execSra (v : Word) (s : State) : Result :=
  s.legacyOnly
    (if v = 0 then (s.setStatus (withBit s.status bitAR false)).done
     else if v = 1 then (s.setStatus (withBit s.status bitAR true)).done
     else .refused .sraOperand)

/-- R144. -/
def execAxy (s : State) : Result := s.toActive (s.x + s.y)

/-- R145: "Subtract X from Y" (decision D10). -/
def execSxy (s : State) : Result := s.toActive (s.y - s.x)

/-- R146. -/
def execMxy (s : State) : Result := s.toActive (s.x * s.y)

/-- R147 (decision D8): a zero divisor writes 0 and sets bit 5. -/
def execDxy (s : State) : Result :=
  s.legacyOnly ((s.setActive (if s.y = 0 then 0 else s.x / s.y)).setStatus (divStatus s.y s.status)).done

/-- R148. -/
def execEqu (s : State) : Result := s.toStatus (equStatus s.x s.y s.status)

/-- R149. -/
def execLeq (s : State) : Result := s.toStatus (leqStatus s.x s.y s.status)

/-- R150 (decision D11). -/
def execJpz (target : Word) (s : State) : Result := s.legacyOnly (s.jumpIf (!s.flag bitEQ) target)

/-- R151 (decision D11). -/
def execJnz (target : Word) (s : State) : Result := s.legacyOnly (s.jumpIf (s.flag bitEQ) target)

/-- R152. -/
def execJmp (target : Word) (s : State) : Result := s.jumpIf true target

/-- R153. -/
def execClr (s : State) : Result := s.toStatus 0

/-- R154: the CPU halts after this instruction (R31). -/
def execHlt (s : State) : Result := (s.setStatus (withBit s.status bitHF true)).done

/-- R155 (decision D9). -/
def execBsl (s : State) : Result := s.toActive (s.active <<< legacyShift)

/-- R156 (decision D9): logical. -/
def execBsr (s : State) : Result := s.toActive (s.active >>> legacyShift)

/-- R157. -/
def execAndLegacy (s : State) : Result := s.toActive (s.active &&& s.inactive)

/-- R158. -/
def execOra (s : State) : Result := s.toActive (s.active ||| s.inactive)

/-- R159. -/
def execXorLegacy (s : State) : Result := s.toActive (s.active ^^^ s.inactive)

/-- R160. -/
def execDwr (v : Word) (s : State) : Result := s.toActive v

/-! ## V1.1 -/

/-- R161 (decision D13). -/
def execIlm (s : State) : Result := s.toActive (s.memRead s.active)

/-- R162. -/
def execIwr (s : State) : Result := s.legacyOnly (s.storeDone s.inactive s.active)

/-! ## V1.2 -/

/-- R163. -/
def execInc (s : State) : Result := s.toActive (s.active + 1)

/-- R164. -/
def execDec (s : State) : Result := s.toActive (s.active - 1)

end Sys2Proof.Machine
end

