-- ==== Sys2Proof/Machine/Ports.lean ====
section
/-! DEFINITION. IN and OUT (spec/46_ports.md; decision D25), in extension mode only. -/

namespace Sys2Proof.Machine

/-- `PortRead` (R75): the state of the device on the port at the time of the read. -/
def State.portRead (s : State) (p : Fin 8) : Word := s.inputs.ports[p]

/-- R260. -/
def execPortIn (port : Word) (dst : Reg) (s : State) : Result :=
  s.extensionOnly
    (withPort port fun p => requireReg (isGeneral dst) (s.writeReg dst (s.portRead p)).done)

/-- R261. -/
def execPortOut (src : Reg) (port : Word) (s : State) : Result :=
  s.extensionOnly
    (withPort port fun p => requireReg (isGeneral src) (s.sendPort p (s.readReg src)).done)

end Sys2Proof.Machine
end

