-- ==== Sys2Proof/Machine/Stack.lean ====
section
/-! DEFINITION. The stack instructions V1.7 (spec/44_stack.md; decisions D19, D20). SP points at the word last pushed. -/

namespace Sys2Proof.Machine

/-- SP after a push: the address of the word pushed (R32, R240). -/
def pushedSp (sp : Word) : Word :=
  match stackDir with
  | .descending => sp - 1
  | .ascending => sp + 1

/-- SP after a pop (R32, R241). -/
def poppedSp (sp : Word) : Word :=
  match stackDir with
  | .descending => sp + 1
  | .ascending => sp - 1

/-- R240: the register is read before SP changes. -/
def execPush (src : Reg) (s : State) : Result :=
  requireReg (isStackReg src) ((s.setSp (pushedSp s.sp)).storeDone (pushedSp s.sp) (s.readReg src))

/-- R241: the word is read at the old SP; a popped SP replaces the new one. -/
def execPop (dst : Reg) (s : State) : Result :=
  requireReg (isStackReg dst) ((s.setSp (poppedSp s.sp)).writeReg dst (s.memRead s.sp)).done

end Sys2Proof.Machine
end

