-- ==== Sys2Proof/Machine/Timing.lean ====
section
/-! DEFINITION. WAIT and VBLANK (spec/45_timing.md), and the cycles of a CPU that is stalled in one of them. -/

namespace Sys2Proof.Machine

/-- WAIT leaves its wait state: `(CYC - start) mod 65536 >= n` (R250). -/
def waitOver (cyc start n : Word) : Bool := decide (n.toNat ≤ (cyc - start).toNat)

/-- R250: CYC is captured, and the CPU stalls unless no cycle is asked for ("`n = 0` resumes at once"). -/
def execWait (src : Src) (s : State) : Result :=
  s.withSource isMoiSource src fun n => if n = 0 then s.done else .next (s.setStall (.waiting s.cyc n))

/-- R252: the CPU stalls; a signal raised before now does not count. -/
def execVblank (s : State) : Result := .next (s.setStall .vblankWait)

/-- One CPU cycle of a CPU stalled in WAIT (R43a, R250): pc and the registers are frozen, CYC counts. -/
def State.waitCycle (s : State) (start n : Word) : State :=
  if waitOver (s.cyc + 1) start n then s.resume.elapse s.instrCycles else s.elapse 1

/-- One CPU cycle of a CPU stalled in VBLANK (R43a, R252): pc and the registers are frozen, CYC counts. -/
def State.vblankCycle (s : State) : State :=
  if s.inputs.vblank then s.resume.elapse s.instrCycles else s.elapse 1

end Sys2Proof.Machine
end

