-- ==== Sys2Proof/Machine/Dispatch.lean ====
section
/-! DEFINITION. The dispatch of an instruction to its meaning, one arm per constructor. -/

namespace Sys2Proof.Machine

def exec (i : Instr) (s : State) : Host.Outcome State Fault Refusal :=
  match i with
  | .nop => Sys2Proof.Machine.execNop s
  | .lfm addr => Sys2Proof.Machine.execLfm addr s
  | .wtm addr => Sys2Proof.Machine.execWtm addr s
  | .sra v => Sys2Proof.Machine.execSra v s
  | .axy => Sys2Proof.Machine.execAxy s
  | .sxy => Sys2Proof.Machine.execSxy s
  | .mxy => Sys2Proof.Machine.execMxy s
  | .dxy => Sys2Proof.Machine.execDxy s
  | .equ => Sys2Proof.Machine.execEqu s
  | .leq => Sys2Proof.Machine.execLeq s
  | .jpz target => Sys2Proof.Machine.execJpz target s
  | .jnz target => Sys2Proof.Machine.execJnz target s
  | .jmp target => Sys2Proof.Machine.execJmp target s
  | .clr => Sys2Proof.Machine.execClr s
  | .hlt => Sys2Proof.Machine.execHlt s
  | .bsl => Sys2Proof.Machine.execBsl s
  | .bsr => Sys2Proof.Machine.execBsr s
  | .andLegacy => Sys2Proof.Machine.execAndLegacy s
  | .ora => Sys2Proof.Machine.execOra s
  | .xorLegacy => Sys2Proof.Machine.execXorLegacy s
  | .dwr v => Sys2Proof.Machine.execDwr v s
  | .ilm => Sys2Proof.Machine.execIlm s
  | .iwr => Sys2Proof.Machine.execIwr s
  | .inc => Sys2Proof.Machine.execInc s
  | .dec => Sys2Proof.Machine.execDec s
  | .mov src dst => Sys2Proof.Machine.execMov src dst s
  | .str src dst => Sys2Proof.Machine.execStr src dst s
  | .lod src dst => Sys2Proof.Machine.execLod src dst s
  | .cmp => Sys2Proof.Machine.execCmp s
  | .jeq target => Sys2Proof.Machine.execJeq target s
  | .jne target => Sys2Proof.Machine.execJne target s
  | .jlt target => Sys2Proof.Machine.execJlt target s
  | .jgt target => Sys2Proof.Machine.execJgt target s
  | .jle target => Sys2Proof.Machine.execJle target s
  | .jge target => Sys2Proof.Machine.execJge target s
  | .add src dst => Sys2Proof.Machine.execAdd src dst s
  | .sub src dst => Sys2Proof.Machine.execSub src dst s
  | .mul src dst => Sys2Proof.Machine.execMul src dst s
  | .div src dst => Sys2Proof.Machine.execDiv src dst s
  | .and src dst => Sys2Proof.Machine.execAnd src dst s
  | .or src dst => Sys2Proof.Machine.execOr src dst s
  | .xor src dst => Sys2Proof.Machine.execXor src dst s
  | .shl src dst => Sys2Proof.Machine.execShl src dst s
  | .shr src dst => Sys2Proof.Machine.execShr src dst s
  | .push src => Sys2Proof.Machine.execPush src s
  | .pop dst => Sys2Proof.Machine.execPop dst s
  | .wait src => Sys2Proof.Machine.execWait src s
  | .vblank => Sys2Proof.Machine.execVblank s
  | .portIn port dst => Sys2Proof.Machine.execPortIn port dst s
  | .portOut src port => Sys2Proof.Machine.execPortOut src port s
  | .dbgLgc => Sys2Proof.Machine.execDbgLgc s
  | .dbgMem => Sys2Proof.Machine.execDbgMem s
  | .dbgInp => Sys2Proof.Machine.execDbgInp s

end Sys2Proof.Machine
end

