-- ==== Sys2Proof/Machine/Fetch.lean ====
section
/-! DEFINITION. Fetching an instruction (spec/10_state.md R24, spec/20_memory.md R73) and executing it, and the order of
the checks (spec/60_exceptions.md R283). -/

namespace Sys2Proof.Machine

/-- The word fetched at `pc + k`, modulo 65536 (R24). -/
def State.fetchWord (s : State) (k : Nat) : Word := s.memRead (s.pc + BitVec.ofNat 16 k)

/-- The instruction at pc: three words are fetched, whatever the instruction (R100). -/
def State.fetched (s : State) : Except DecodeError Instr := decode (s.fetchWord 0) (s.fetchWord 1) (s.fetchWord 2)

/-- The refusal of check (2) of R283, where it applies to an opcode id in the present mode. -/
def State.modeRefusal (s : State) (id : Byte) : Option Refusal :=
  match availabilityOf id with
  | .both => none
  | .legacy => if s.em = 0 then none else some .legacyOnly
  | .extension => if s.em = 1 then none else some .extensionOnly

/-- The refusal a failed decoding reports: check (2) of R283 comes before checks (3) and (4). -/
def State.decodeRefusal (s : State) : DecodeError → Refusal
  | .noOpcode => .noSuchOpcode
  | .controlByte id => (s.modeRefusal id).getD .controlByte
  | .registerOperand id => (s.modeRefusal id).getD .registerOperand
  | .sraOperand id => (s.modeRefusal id).getD .sraOperand
  | .portNumber id => (s.modeRefusal id).getD .portNumber

/-- The end of a step: time passes where the instruction gives a next state. -/
def retired : Result → Result
  | .next t => .next t.retire
  | .fault f => .fault f
  | .refused r => .refused r

/-- A step of a running CPU: fetch, decode, execute. -/
def State.runCycle (s : State) : Result :=
  match s.fetched with
  | .ok i => retired (exec i s)
  | .error e => .refused (s.decodeRefusal e)

/-- Memory with the three words of an instruction placed at an address, modulo 65536. -/
def Memory.placeInstr (m : Memory) (pc w0 w1 w2 : Word) : Memory :=
  ((m.write pc.toNat w0).write (pc + 1).toNat w1).write (pc + 2).toNat w2

end Sys2Proof.Machine
end

