-- ==== Sys2Proof/Machine/Step.lean ====
section
/-! DEFINITION. One step of the machine. -/

namespace Sys2Proof.Machine

/-- One step: nothing more happens to a halted CPU (spec/10_state.md R31); a running one executes an instruction; a
stalled one spends a CPU cycle (R43, R272). -/
def step (s : State) : Host.Outcome State Fault Refusal :=
  if s.halted then .next s
  else
    match s.stall with
    | .running => s.runCycle
    | .waiting start n => .next (s.waitCycle start n)
    | .vblankWait => .next s.vblankCycle
    | .prompting => .next s.promptCycle

/-- `s` with the instruction whose bits are the low `nbits` bits of `w` placed at pc. -/
def State.withFetchWord (s : State) (nbits w : Nat) : State :=
  let v := w % 2 ^ nbits
  s.setMem (s.mem.placeInstr s.pc (tableWord v 0) (tableWord v 1) (tableWord v 2))

end Sys2Proof.Machine
end

