-- ==== Sys2Proof/Machine/Devices.lean ====
section
/-! DEFINITION. The platform as the spec describes it: the memory regions (spec/20_memory.md R65, R67, R68) and the picture
the display shows of VRAM (spec/60_exceptions.md R295). None of it is an instruction's effect. -/

namespace Sys2Proof.Machine

/-- The regions of the memory map. -/
inductive Region where
  | rom
  | ram
  | vram
deriving DecidableEq, Repr

/-- The region of an address in the present mode (R65, R67). -/
def State.regionOf (s : State) (a : Word) : Region :=
  if s.inRom a then .rom else if inVram a then .vram else .ram

/-! ## The display -/

/-- The k-th word the display reads: VRAM begins at 0xFFFF and descends (R68, R295). -/
def State.frameWord (s : State) (k : Nat) : Word := s.mem.read (0xFFFF - k)

/-- How many pixels a word of VRAM holds: two, three or four. With fewer the picture would not fit in the range of VRAM, and
a word has no room for more (R68, C2). -/
def pixelsPerWord : Nat := 2 + Config.morePixelsPerWord.val

/-- The place of a pixel in the picture: right, then down, from the top-left corner (R68, R295). -/
def pixelIndex (row col : Fin 100) : Nat := row.val * 100 + col.val

/-- The number, in the display's order, of the word that holds a pixel. -/
def pixelWord (row col : Fin 100) : Nat := pixelIndex row col / pixelsPerWord

/-- Four bits of a word, from bit `4 * n` on. -/
def nibbleOf (w : Word) (n : Fin 4) : BitVec 4 := w.extractLsb' (4 * n.val) 4

/-- The 4-bit colour the display shows at a row and a column of its 100 by 100 pixels: four bits of the word that holds the
pixel; which four is free (`VRAM_PACKING`, decision D29, log 17). -/
def State.displayPixel (s : State) (row col : Fin 100) : BitVec 4 :=
  nibbleOf (s.frameWord (pixelWord row col)) (Config.pixelNibble (pixelIndex row col % pixelsPerWord))

end Sys2Proof.Machine
end

