-- ==== Sys2Proof/Machine/Loader.lean ====
section
/-! DEFINITION. ROM image files and their loading before execution (spec/70_reset_and_hazards.md R330 to R335): how a
program comes to stand in memory. No instruction reaches any of it. -/

namespace Sys2Proof.Machine

/-- Why the loader rejects a file. -/
inductive LoadError where
  /-- The file begins with neither magic (R331, R332). -/
  | magic
  /-- The file ends inside the extended header (R332). -/
  | header
  /-- A ROM format version other than 1 (R332, I13). -/
  | version
  /-- A mapper value other than 0 and 1 (R332). -/
  | mapper
  /-- The ROM size field is not the payload's length in words (R332, I14). -/
  | sizeMismatch
  /-- The payload does not fit in the ROM range or in its container (R330, R334, I15). -/
  | tooLarge
deriving DecidableEq, Repr

/-- A decoded ROM image: the words and where they go (R330), and how many words of ROM it may use. -/
structure RomImage where
  start : Nat
  words : List Word
  limit : Nat
deriving DecidableEq, Repr

/-- The ASCII string ".VISOFOX16" (R331). -/
def legacyMagic : List Byte := [0x2E, 0x56, 0x49, 0x53, 0x4F, 0x46, 0x4F, 0x58, 0x31, 0x36]

/-- The ASCII string ".VFOX16EXT" (R332). -/
def extendedMagic : List Byte := [0x2E, 0x56, 0x46, 0x4F, 0x58, 0x31, 0x36, 0x45, 0x58, 0x54]

/-- The words of the file's bytes, most significant byte first; a lone last byte is padded with a zero byte (R331). -/
def wordsOfBytes : List Byte → List Word
  | [] => []
  | [hi] => [wordOfBytes hi 0]
  | hi :: lo :: rest => wordOfBytes hi lo :: wordsOfBytes rest

/-- The file's bytes of a word (R331). -/
def bytesOfWord (w : Word) : List Byte := [highByte w, lowByte w]

/-- The file's bytes of a sequence of words (R331). -/
def bytesOfWords : List Word → List Byte
  | [] => []
  | w :: rest => highByte w :: lowByte w :: bytesOfWords rest

/-- What follows a magic at the start of a file. -/
def afterMagic : List Byte → List Byte → Option (List Byte)
  | [], file => some file
  | _ :: _, [] => none
  | m :: magic, b :: file => if m = b then afterMagic magic file else none

/-- A big-endian number (R332). -/
def bigEndian (bytes : List Byte) : Nat := bytes.foldl (fun n b => n * 256 + b.toNat) 0

/-- How many bytes the mapper field has: 2 in a header of 17 bytes, 1 in one of 16 (R332, C11). -/
def mapperBytes : Nat := extHeaderLength - 15

/-- The extended header after its magic, and the payload (R332). -/
def parseExtended (rest : List Byte) : Except LoadError RomImage :=
  if rest.length < 5 + mapperBytes then .error .header
  else if rest.take 1 ≠ [1] then .error .version
  else
    let mapper := bigEndian ((rest.drop 1).take mapperBytes)
    let start := bigEndian ((rest.drop (1 + mapperBytes)).take 2)
    let size := bigEndian ((rest.drop (3 + mapperBytes)).take 2)
    let words := wordsOfBytes (rest.drop (5 + mapperBytes))
    if words.length ≠ size then .error .sizeMismatch
    else
      match mapper with
      | 0 => .ok ⟨start, words, min 0x1000 romWordsExtension⟩
      | 1 => .ok ⟨start, words, romWordsExtension⟩
      | _ => .error .mapper

/-- The image of a file (R331, R332). -/
def parseImage (file : List Byte) : Except LoadError RomImage :=
  match afterMagic legacyMagic file with
  | some payload => .ok ⟨0, wordsOfBytes payload, romWordsLegacy⟩
  | none =>
    match afterMagic extendedMagic file with
    | some rest => parseExtended rest
    | none => .error .magic

/-- The machine right after reset with an image loaded; the rest of memory is as after reset (R320, R321, R330). -/
def State.withImage (image : RomImage) : State :=
  State.reset.setMem (State.reset.mem.writeAll image.start image.words)

/-- The initial state of a ROM image file (R320, R330, R334). -/
def bootState (file : List Byte) : Except LoadError State :=
  match parseImage file with
  | .error e => .error e
  | .ok image =>
    if image.start + image.words.length ≤ image.limit then .ok (State.withImage image) else .error .tooLarge

/-! ## What the tools write -/

/-- A legacy image file (R331). -/
def legacyFile (payload : List Word) : List Byte := legacyMagic ++ bytesOfWords payload

/-- An extended image file of format version 1 (R332). -/
def extendedFile (mapper : Byte) (start : Word) (payload : List Word) : List Byte :=
  extendedMagic ++ 1 :: (List.replicate (mapperBytes - 1) 0 ++ [mapper]) ++ bytesOfWord start ++
    bytesOfWord (BitVec.ofNat 16 payload.length) ++ bytesOfWords payload

/-- The payload the ROM generator writes: a NOP word and a HLT word are appended (R331, R132, C7). -/
def generatedPayload (program : List Word) : List Word :=
  program ++ [word0With word0Layout .nop, word0With word0Layout .hlt]

/-- The assembler's `--strict-format` limit, the toolchain's and not the machine's (R334, C3). -/
def strictFormatAccepts (payload : List Word) : Bool := decide (payload.length ≤ 2048)

end Sys2Proof.Machine
end

