-- ==== Sys2Proof/Safety.lean ====
section
/-! DEFINITION. The words the claims are stated in: what a good state is, what a run does, what an operand's value is, and
which instructions the spec names for an effect. -/

namespace Sys2Proof.Machine

/-! ## Good states and runs -/

/-- EM holds one of its two legal values (spec/10_state.md R37). -/
def State.legalMode (s : State) : Bool := decide (s.em = 0) || decide (s.em = 1)

/-- A CPU that waits has not waited long enough yet, one blocked in DBG_INP is in legacy mode, and a halted CPU is not stalled
(R31, R43, R250, R272, R274). -/
def State.stallSound (s : State) : Bool :=
  match s.stall with
  | .running => true
  | .waiting start n => !waitOver s.cyc start n && !s.halted
  | .vblankWait => !s.halted
  | .prompting => !s.halted && decide (s.em = 0)

/-- What every step keeps: memory in canonical form, a legal mode, a sound stall state. -/
def State.inv (s : State) : Bool := s.mem.wf && s.legalMode && s.stallSound

/-- `k` steps lead from `s` to `t`. -/
def Reaches (k : Nat) (s t : State) : Prop := Sys2Proof.core.run k s = .next t

/-- A safe run: `k` steps in a row have a meaning. -/
def SafeRun (k : Nat) (s : State) : Prop := ∃ t, Reaches k s t

/-- A complete run: the CPU is halted after `k` steps (R340). -/
def HaltsAfter (k : Nat) (s t : State) : Prop := Reaches k s t ∧ t.halted = true

/-- Two states agree on all a stalled CPU keeps (R250, R252): everything but pc, CYC, the stall state, and what the
other agents present. -/
def SameFrozen (s t : State) : Prop :=
  t.x = s.x ∧ t.y = s.y ∧ t.status = s.status ∧ t.sp = s.sp ∧ t.em = s.em ∧ t.mem = s.mem ∧
    t.outputs = s.outputs

/-! ## Operands -/

/-- The value of a source operand of STR, the ALU instructions and WAIT (R21, R29, R111); none outside their set. -/
def moiValue (s : State) : Src → Option Word
  | .imm v => some v
  | .reg .x => some s.x
  | .reg .y => some s.y
  | .reg .status => some (s.status.zeroExtend 16)
  | .reg _ => none

/-- The value of a source operand of MOV (R21, R181). -/
def movValue (s : State) : Src → Option Word
  | .reg .sp => some s.sp
  | .reg .cyc => some s.cyc
  | .reg .em => some s.em
  | src => moiValue s src

/-- The value of a register PUSH may name (R240, R242). -/
def stackValue (s : State) : Reg → Option Word
  | .x => some s.x
  | .y => some s.y
  | .status => some (s.status.zeroExtend 16)
  | .sp => some s.sp
  | _ => none

/-- The address of a memory operand: an indirect one is read through memory (R112, R113, decision D14). -/
def memAddress (s : State) : MemOp → Word
  | .direct w => w
  | .indirect w => s.memRead w

/-- `s` with the general register `d` holding `v`. -/
def State.withGeneral (s : State) (d : Reg) (v : Word) : State :=
  if d = .x then { s with x := v } else { s with y := v }

/-- The value of a general register. -/
def State.general (s : State) (d : Reg) : Word := if d = .x then s.x else s.y

/-- `s` with the active register of R27 holding `v`. -/
def State.withActive (s : State) (v : Word) : State :=
  if s.status.getLsbD 4 then { s with y := v } else { s with x := v }

/-- `p` is the address of the following instruction, where that is no more than 0xFFFF. The rules that write `pc <- next`
say this much without the spec's own decision D4, the wrap of the pc. -/
def AdvancesTo (s : State) (p : Word) : Prop := s.pc.toNat + 3 < 65536 → p = s.pc + 3

/-- An address of the ROM range, which is 4096 words in both modes (R65, R67, decision D28). -/
abbrev InRom (a : Word) : Prop := a.toNat < 0x1000

/-- The bits of `st` are those of `old` but for bit `j`, which is `b`. -/
def OnlyBit (st old : Byte) (j : Nat) (b : Bool) : Prop :=
  st.getLsbD j = b ∧ ∀ k, k ≠ j → st.getLsbD k = old.getLsbD k

/-- `t` is `s` with the word `v` stored at `a`, every other word of memory as before, and pc advanced. -/
def StoredAt (s t : State) (a v : Word) : Prop :=
  t.memRead a = v ∧ (∀ b, b ≠ a → t.memRead b = s.memRead b) ∧ t = { s with mem := t.mem, pc := s.pc + 3 }

/-- The control bytes of the operand-encoded instructions, the last column of the table of R115. -/
def canonicalControls (id : Byte) : List Byte :=
  if id = 0x19 then [0x02, 0x06]
  else if id = 0x1A then [0x22, 0x26, 0x32, 0x36]
  else if id = 0x1B then [0x0A, 0x0E]
  else if 0x23 ≤ id.toNat ∧ id.toNat ≤ 0x2B then [0x02, 0x06]
  else if id = 0x2C ∨ id = 0x2D then [0x01]
  else if id = 0x2E then [0x01, 0x05]
  else if id = 0x30 then [0x06]
  else if id = 0x31 then [0x12]
  else []

/-! ## Which instructions have an effect -/

/-- The instructions that transfer control or may stall: the others end with `pc <- next` (R170, R207, R250, R252, R272). -/
def setsPc : Instr → Bool
  | .jpz _ | .jnz _ | .jmp _ | .jeq _ | .jne _ | .jlt _ | .jgt _ | .jle _ | .jge _ | .wait _ | .vblank | .dbgInp =>
    true
  | .nop | .lfm _ | .wtm _ | .sra _ | .axy | .sxy | .mxy | .dxy | .equ | .leq | .clr | .hlt | .bsl | .bsr
  | .andLegacy | .ora | .xorLegacy | .dwr _ | .ilm | .iwr | .inc | .dec | .mov _ _ | .str _ _ | .lod _ _ | .cmp
  | .add _ _ | .sub _ _ | .mul _ _ | .div _ _ | .and _ _ | .or _ _ | .xor _ _ | .shl _ _ | .shr _ _ | .push _
  | .pop _ | .portIn _ _ | .portOut _ _ | .dbgLgc | .dbgMem => false

/-- The target of a jump and whether it is taken (R150 to R152, R201 to R206; decisions D11, D35). -/
def jumpOf (s : State) : Instr → Option (Word × Bool)
  | .jpz a => some (a, !s.status.getLsbD 0)
  | .jnz a | .jeq a => some (a, s.status.getLsbD 0)
  | .jmp a => some (a, true)
  | .jne a => some (a, s.status.getLsbD 3)
  | .jlt a => some (a, s.status.getLsbD 1)
  | .jgt a => some (a, s.status.getLsbD 2)
  | .jle a => some (a, s.status.getLsbD 1 || s.status.getLsbD 0)
  | .jge a => some (a, s.status.getLsbD 2 || s.status.getLsbD 0)
  | .nop | .lfm _ | .wtm _ | .sra _ | .axy | .sxy | .mxy | .dxy | .equ | .leq | .clr | .hlt | .bsl | .bsr
  | .andLegacy | .ora | .xorLegacy | .dwr _ | .ilm | .iwr | .inc | .dec | .mov _ _ | .str _ _ | .lod _ _ | .cmp
  | .add _ _ | .sub _ _ | .mul _ _ | .div _ _ | .and _ _ | .or _ _ | .xor _ _ | .shl _ _ | .shr _ _ | .push _
  | .pop _ | .wait _ | .vblank | .portIn _ _ | .portOut _ _ | .dbgLgc | .dbgMem | .dbgInp => none

/-- The bits of STATUS an instruction may write, in the column "written by" of the table of R28. -/
def mayWriteBit : Instr → Nat → Bool
  | .equ, j => decide (j = 0)
  | .leq, j | .cmp, j => decide (j ≤ 3)
  | .sra _, j => decide (j = 4)
  | .dxy, j | .div _ _, j => decide (j = 5)
  | .hlt, j => decide (j = 6)
  | .clr, _ => true
  | .pop r, _ => decide (r = .status)
  | .nop, _ | .lfm _, _ | .wtm _, _ | .axy, _ | .sxy, _ | .mxy, _ | .jpz _, _ | .jnz _, _ | .jmp _, _ | .bsl, _
  | .bsr, _ | .andLegacy, _ | .ora, _ | .xorLegacy, _ | .dwr _, _ | .ilm, _ | .iwr, _ | .inc, _ | .dec, _
  | .mov _ _, _ | .str _ _, _ | .lod _ _, _ | .jeq _, _ | .jne _, _ | .jlt _, _ | .jgt _, _ | .jle _, _ | .jge _, _
  | .add _ _, _ | .sub _ _, _ | .mul _ _, _ | .and _ _, _ | .or _ _, _ | .xor _ _, _ | .shl _ _, _ | .shr _ _, _
  | .push _, _ | .wait _, _ | .vblank, _ | .portIn _ _, _ | .portOut _ _, _ | .dbgLgc, _ | .dbgMem, _ | .dbgInp, _
    => false

/-- The address an instruction stores to, if its form stores (R142, R162, R182, R240). -/
def storeAddress (s : State) : Instr → Option Word
  | .wtm addr => some addr
  | .iwr => some s.inactive
  | .str _ dst => some (memAddress s dst)
  | .push _ => some (pushedSp s.sp)
  | .nop | .lfm _ | .sra _ | .axy | .sxy | .mxy | .dxy | .equ | .leq | .jpz _ | .jnz _ | .jmp _ | .clr | .hlt | .bsl
  | .bsr | .andLegacy | .ora | .xorLegacy | .dwr _ | .ilm | .inc | .dec | .mov _ _ | .lod _ _ | .cmp | .jeq _
  | .jne _ | .jlt _ | .jgt _ | .jle _ | .jge _ | .add _ _ | .sub _ _ | .mul _ _ | .div _ _ | .and _ _ | .or _ _
  | .xor _ _ | .shl _ _ | .shr _ _ | .pop _ | .wait _ | .vblank | .portIn _ _ | .portOut _ _ | .dbgLgc | .dbgMem
  | .dbgInp => none

/-- Register `x` may be written by the instruction. That ILM (R161) and DBG_INP (R272) write the active register is the
spec's decision D13 (log 15) and D26 (log 14). -/
def mayWriteX (s : State) : Instr → Bool
  | .lfm _ | .axy | .sxy | .mxy | .dxy | .bsl | .bsr | .andLegacy | .ora | .xorLegacy | .dwr _ | .ilm | .inc | .dec
  | .dbgInp => !s.yActive
  | .mov _ d | .lod _ d | .add _ d | .sub _ d | .mul _ d | .div _ d | .and _ d | .or _ d | .xor _ d | .shl _ d
  | .shr _ d | .pop d | .portIn _ d => decide (d = .x)
  | .nop | .wtm _ | .sra _ | .equ | .leq | .jpz _ | .jnz _ | .jmp _ | .clr | .hlt | .iwr | .str _ _ | .cmp
  | .jeq _ | .jne _ | .jlt _ | .jgt _ | .jle _ | .jge _ | .push _ | .wait _ | .vblank | .portOut _ _ | .dbgLgc
  | .dbgMem => false

/-- Register `y` may be written by the instruction. That ILM (R161) and DBG_INP (R272) write the active register is the
spec's decision D13 (log 15) and D26 (log 14). -/
def mayWriteY (s : State) : Instr → Bool
  | .lfm _ | .axy | .sxy | .mxy | .dxy | .bsl | .bsr | .andLegacy | .ora | .xorLegacy | .dwr _ | .ilm | .inc | .dec
  | .dbgInp => s.yActive
  | .mov _ d | .lod _ d | .add _ d | .sub _ d | .mul _ d | .div _ d | .and _ d | .or _ d | .xor _ d | .shl _ d
  | .shr _ d | .pop d | .portIn _ d => decide (d = .y)
  | .nop | .wtm _ | .sra _ | .equ | .leq | .jpz _ | .jnz _ | .jmp _ | .clr | .hlt | .iwr | .str _ _ | .cmp
  | .jeq _ | .jne _ | .jlt _ | .jgt _ | .jle _ | .jge _ | .push _ | .wait _ | .vblank | .portOut _ _ | .dbgLgc
  | .dbgMem => false

/-- SP may be written by the instruction (R32). -/
def mayWriteSp : Instr → Bool
  | .mov _ d => decide (d = .sp)
  | .push _ | .pop _ => true
  | .nop | .lfm _ | .wtm _ | .sra _ | .axy | .sxy | .mxy | .dxy | .equ | .leq | .jpz _ | .jnz _ | .jmp _ | .clr
  | .hlt | .bsl | .bsr | .andLegacy | .ora | .xorLegacy | .dwr _ | .ilm | .iwr | .inc | .dec | .str _ _ | .lod _ _
  | .cmp | .jeq _ | .jne _ | .jlt _ | .jgt _ | .jle _ | .jge _ | .add _ _ | .sub _ _ | .mul _ _ | .div _ _ | .and _ _
  | .or _ _ | .xor _ _ | .shl _ _ | .shr _ _ | .wait _ | .vblank | .portIn _ _ | .portOut _ _ | .dbgLgc | .dbgMem
  | .dbgInp => false

end Sys2Proof.Machine
end

