-- ==== Sys2Proof/Certificates/Slice0/Obligations.lean ====
section
/-! DEFINITION. The statements for the provers. Where a docstring names a decision D<n>, the clause rests on the spec's own
choice (spec/92_eei_decisions.md), which the model follows, not on its source. -/

open Sys2Proof Sys2Proof.Machine

/-! ## Encoding -/

/-- Decoding an encoded well-formed instruction gives it back, under either layout of word 0 (R104, R106, R115; the layout
is decision D1, log 1). -/
def Obligations.DecodingReadsBackEveryEncoding : Prop :=
  ∀ (layout : Word0Layout) (i : Instr), i.wf = true →
    decodeWith layout (encodeWith layout i).1 (encodeWith layout i).2.1 (encodeWith layout i).2.2 = .ok i

/-- What the decoder accepts is well formed, names the opcode id of word 0, and, where it is a two-operand instruction,
is the instruction of no other three words (R107, R119; decisions D1, D3). -/
def Obligations.AcceptedWordsAreTheirInstruction : Prop :=
  ∀ (w0 w1 w2 : Word) (i : Instr), decodeWith .fields w0 w1 w2 = .ok i →
    i.wf = true ∧ opcodeId i = fieldId w0 ∧
      (isNonOeId (fieldId w0) = false → controlOf i = fieldCtl w0) ∧
      (isNonOeId (fieldId w0) = false → fieldCnt (fieldCtl w0) = 2 → fieldId w0 ≠ 0xC0 →
        encodeWith .fields i = (w0, w1, w2))

/-- The fields of word 0 (R101, R102). -/
def Obligations.WordZeroIsMadeOfItsFields : Prop :=
  ∀ w0 : Word,
    w0.toNat = (fieldId w0).toNat * 256 + (fieldRsv (fieldCtl w0)).toNat * 64 + (fieldT2 (fieldCtl w0)).toNat * 16 +
      (fieldT1 (fieldCtl w0)).toNat * 4 + (fieldCnt (fieldCtl w0)).toNat

/-- The control byte and word 2 of a non-operand-encoded instruction are ignored (R106, decision D2, log 2). -/
def Obligations.NonOperandEncodedIgnoreControl : Prop :=
  ∀ (id ctl ctl' : Byte) (w1 w2 w2' : Word), isNonOeId id = true →
    decodeWith .fields (wordOfBytes id ctl) w1 w2 = decodeWith .fields (wordOfBytes id ctl') w1 w2' ∧
      ∃ r, decodeWith .fields (wordOfBytes id ctl) w1 w2 = r ∧ r ≠ .error .noOpcode

/-- Word 0 names no instruction exactly for the reserved ids and debug functions of R122 (decision D5, log 2). -/
def Obligations.ReservedOpcodesNameNothing : Prop :=
  ∀ w0 w1 w2 : Word,
    decodeWith .fields w0 w1 w2 = .error .noOpcode ↔
      (0x32 ≤ (fieldId w0).toNat ∧ (fieldId w0).toNat ≤ 0xBF) ∨ 0xC1 ≤ (fieldId w0).toNat ∨
        (fieldId w0 = 0xC0 ∧ 2 < (fieldCtl w0).toNat)

/-- An operand-encoded instruction is refused for its control byte exactly where that byte is none of R115's (R107;
decisions D3, D15, log 2). -/
def Obligations.ForeignControlBytesAreRefused : Prop :=
  ∀ w0 w1 w2 : Word,
    decodeWith .fields w0 w1 w2 = .error (.controlByte (fieldId w0)) ↔
      canonicalControls (fieldId w0) ≠ [] ∧ fieldCtl w0 ∉ canonicalControls (fieldId w0)

/-- A few words written out from the spec's encodings (spec/95_test_vectors.md 2.1; decision D1). -/
def Obligations.SampleWordsDecode : Prop :=
  decode 0x00FF 0x0000 0x0000 = .ok .nop ∧ decode 0x0C00 0x0009 0x0000 = .ok (.jmp 9) ∧
    decode 0x1906 0x0001 0x0006 = .ok (.mov (.imm 1) .em) ∧
    decode 0x1A36 0x00AA 0x2100 = .ok (.str (.imm 0xAA) (.indirect 0x2100)) ∧
    decode 0x1B0A 0x2000 0x0001 = .ok (.lod (.direct 0x2000) .y) ∧
    decode 0x2C01 0x0003 0x0000 = .ok (.push .status) ∧ decode 0x2E05 0x0064 0x0000 = .ok (.wait (.imm 100)) ∧
    decode 0x3112 0x0000 0x0001 = .ok (.portOut .x 1) ∧ decode 0xC001 0x0000 0x0000 = .ok .dbgMem ∧
    decode 0x1946 0x0001 0x0006 = .error (.controlByte 0x19) ∧ decode 0x3200 0x0000 0x0000 = .error .noOpcode

/-! ## The step -/

/-- A running CPU executes the instruction that the three words at pc decode to; then the instruction's cycles pass, at
least one (R24, R36; decision D21, log 13). Two clauses are the model's choice: that no cycle passes in the step in which an
instruction stalls the CPU (log 22), and that the ports, the VBlank signal and the user's answer are drawn anew at the end
of the step (log 12). -/
def Obligations.StepRunsDecodedInstruction : Prop :=
  ∀ (s : State) (i : Instr), s.status.getLsbD 6 = false → s.stall = .running →
    decode (s.memRead s.pc) (s.memRead (s.pc + 1)) (s.memRead (s.pc + 2)) = .ok i → i.wf = true →
      step s =
        match exec i s with
        | .next t => .next (t.elapse (if t.stall = .running then 1 + Config.extraCycles t.now else 0))
        | .fault f => .fault f
        | .refused r => .refused r

/-- Words that are no instruction are refused, check (2) of R283 before checks (3) and (4) (decision D5). -/
def Obligations.FailedDecodingIsRefusedInOrder : Prop :=
  ∀ (s : State) (e : DecodeError), s.status.getLsbD 6 = false → s.stall = .running →
    decode (s.memRead s.pc) (s.memRead (s.pc + 1)) (s.memRead (s.pc + 2)) = .error e →
      step s = .refused
        (match e with
         | .noOpcode => .noSuchOpcode
         | .sraOperand _ => if s.em = 0 then .sraOperand else .legacyOnly
         | .portNumber _ => if s.em = 1 then .portNumber else .extensionOnly
         | .controlByte id => if (id = 0x30 ∨ id = 0x31) ∧ s.em ≠ 1 then .extensionOnly else .controlByte
         | .registerOperand id => if (id = 0x30 ∨ id = 0x31) ∧ s.em ≠ 1 then .extensionOnly else .registerOperand)

/-- A halted CPU stays as it is (R31, decision D31; that CYC stands still too is the model's choice, log 16). -/
def Obligations.HaltedCpuStaysAsItIs : Prop :=
  ∀ (s : State) (k : Nat), s.status.getLsbD 6 = true → Reaches k s s

/-! ## Invariants and whole-machine rules -/

/-- Every step keeps memory canonical, the mode legal (R37, R38) and the stall state sound (R31, R43, R250). -/
def Obligations.StepKeepsTheInvariant : Prop :=
  ∀ s t : State, s.inv = true → step s = .next t → t.inv = true

/-- The state after reset meets the invariant. -/
def Obligations.ResetMeetsTheInvariant : Prop := State.reset.inv = true

/-- What the spec says reset leaves: pc 0x0000 (decision D27), EM 0x0000, CYC 0x0000, not halted, running, legacy mode
(R30, R35, R37, R44). -/
def Obligations.ResetLeavesTheStatedValues : Prop :=
  State.reset.pc = 0 ∧ State.reset.em = 0 ∧ State.reset.cyc = 0 ∧ State.reset.status.getLsbD 6 = false ∧
    State.reset.stall = .running ∧ State.reset.outputs = []

/-- No run, in any mode, changes a word of ROM (R63, R83; decision D28, log 8). -/
def Obligations.RunsNeverChangeRom : Prop :=
  ∀ (k : Nat) (s t : State) (a : Word), InRom a → Reaches k s t → t.memRead a = s.memRead a

/-- No instruction writes CYC (R34). -/
def Obligations.NoInstructionWritesCyc : Prop :=
  ∀ (i : Instr) (s t : State), exec i s = .next t → t.cyc = s.cyc

/-- An instruction writes no STATUS bit but those in whose row of R28's table it stands (DXY: decision D8). -/
def Obligations.OnlyTabledInstructionsWriteStatus : Prop :=
  ∀ (i : Instr) (s t : State) (j : Nat), exec i s = .next t → mayWriteBit i j = false →
    t.status.getLsbD j = s.status.getLsbD j

/-- The illegal-division flag stays set until CLR or POP STATUS (R281, decision D8). -/
def Obligations.DivisionFlagIsSticky : Prop :=
  ∀ (i : Instr) (s t : State), exec i s = .next t → s.status.getLsbD 5 = true →
    t.status.getLsbD 5 = true ∨ i = .clr ∨ i = .pop .status

/-- The mode changes only through MOV to EM, and only to 0 or 1 (R37 to R39, R290; decision D24). -/
def Obligations.OnlyMovChangesTheMode : Prop :=
  ∀ (i : Instr) (s t : State), exec i s = .next t →
    t.em = s.em ∨ ∃ src v, i = .mov src .em ∧ movValue s src = some v ∧ (v = 0 ∨ v = 1) ∧ t.em = v

/-- Every instruction but the jumps and the three that stall ends three words further on, modulo 65536 (R24, decision D4);
a jump ends at its target when it is taken and else three words further on as well (R150 to R152, R201 to R206; decisions
D11, D35); DBG_INP does so when it is answered at once, and else leaves pc where it is (R272). -/
def Obligations.StraightLineAdvancesByThree : Prop :=
  ∀ (i : Instr) (s t : State), exec i s = .next t →
    (setsPc i = false → t.pc = s.pc + 3) ∧
      (∀ target taken, jumpOf s i = some (target, taken) → t.pc = if taken then target else s.pc + 3) ∧
      (i = .dbgInp → t.pc = if s.inputs.typed = none then s.pc else s.pc + 3)

/-- The frame of the registers and the outputs: each is left alone by every instruction the spec does not give a write of
it, and outputs are only ever added at the end (R20, R27, R32, R76, R302, R340; that they are one sequence: log 26). That ILM
writes the active register (R161) is the spec's own decision D13 (log 15), and that DBG_INP does (R272) is its decision D26
(log 14). -/
def Obligations.RegistersChangeOnlyWhereWritten : Prop :=
  ∀ (i : Instr) (s t : State), exec i s = .next t →
    (mayWriteX s i = false → t.x = s.x) ∧ (mayWriteY s i = false → t.y = s.y) ∧ (mayWriteSp i = false → t.sp = s.sp) ∧
      (∃ new, t.outputs = s.outputs ++ new) ∧
      ((∀ src port, i ≠ .portOut src port) → t.portWrites = s.portWrites) ∧
      (i ≠ .dbgLgc → i ≠ .dbgMem → i ≠ .dbgInp → t.console = s.console) ∧
      ((∀ src, i ≠ .wait src) → i ≠ .vblank → i ≠ .dbgInp → t.stall = s.stall)

/-- The frame of memory: every word but the one the instruction's form stores to reads as before; a form that stores
nothing leaves all of them (R73, R79; decision D32). -/
def Obligations.MemoryChangesOnlyWhereStored : Prop :=
  ∀ (i : Instr) (s t : State) (b : Word), exec i s = .next t → storeAddress s i ≠ some b →
    t.memRead b = s.memRead b

/-- Outside the mode that has it an instruction is refused, whatever its operands (R39, R120; decision D6, log 25). -/
def Obligations.InstructionsOutsideTheirModeAreRefused : Prop :=
  ∀ (i : Instr) (s : State),
    (availabilityOf (opcodeId i) = .legacy → s.em ≠ 0 → exec i s = .refused .legacyOnly) ∧
      (availabilityOf (opcodeId i) = .extension → s.em ≠ 1 → exec i s = .refused .extensionOnly)

/-! ## Base instructions -/

/-- NOP changes nothing but pc (R140). -/
def Obligations.NopOnlyAdvances : Prop :=
  ∀ s : State, ∃ p, AdvancesTo s p ∧ exec .nop s = .next { s with pc := p }

/-- LFM loads the active register from memory, DWR writes it with the given value; both are refused with EM = 1
(R141, R160). That an instruction outside its mode is refused is decision D6 and conflict C6 (log 25). -/
def Obligations.LfmAndDwrWriteTheActiveRegister : Prop :=
  ∀ (s : State) (v : Word),
    (s.em = 0 → ∃ p, AdvancesTo s p ∧
      exec (.lfm v) s = .next { s.withActive (s.memRead v) with pc := p } ∧
      exec (.dwr v) s = .next { s.withActive v with pc := p }) ∧
    (s.em = 1 → (∃ r, exec (.lfm v) s = .refused r) ∧ ∃ r, exec (.dwr v) s = .refused r)

/-- WTM and IWR store the active register, outside ROM; into ROM they are refused (R142, R162; decision D28, log 8). -/
def Obligations.LegacyStoresWriteOneWord : Prop :=
  ∀ (s : State) (a : Word), s.em = 0 →
    (¬ InRom a → ∃ t, exec (.wtm a) s = .next t ∧ StoredAt s t a s.active) ∧
      (InRom a → exec (.wtm a) s = .refused .romStore) ∧
      (¬ InRom s.inactive → ∃ t, exec .iwr s = .next t ∧ StoredAt s t s.inactive s.active) ∧
      (InRom s.inactive → exec .iwr s = .refused .romStore)

/-- SRA selects X with 0 and Y with 1 and refuses every other operand (R143; decision D12). -/
def Obligations.SraSelectsTheActiveRegister : Prop :=
  ∀ (s : State) (v : Word), s.em = 0 →
    (v.toNat ≤ 1 →
      ∃ st, exec (.sra v) s = .next { s with status := st, pc := s.pc + 3 } ∧ OnlyBit st s.status 4 (decide (v = 1))) ∧
      (1 < v.toNat → exec (.sra v) s = .refused .sraOperand)

/-- AXY, SXY, MXY, INC and DEC, modulo 65536 (R144, R145, R146, R163, R164; decisions D7, D10). -/
def Obligations.LegacyArithmeticWraps : Prop :=
  ∀ s : State, s.em = 0 →
    exec .axy s = .next { s.withActive (BitVec.ofNat 16 (s.x.toNat + s.y.toNat)) with pc := s.pc + 3 } ∧
      exec .sxy s = .next { s.withActive (BitVec.ofNat 16 (s.y.toNat + 65536 - s.x.toNat)) with pc := s.pc + 3 } ∧
      exec .mxy s = .next { s.withActive (BitVec.ofNat 16 (s.x.toNat * s.y.toNat)) with pc := s.pc + 3 } ∧
      exec .inc s = .next { s.withActive (BitVec.ofNat 16 (s.active.toNat + 1)) with pc := s.pc + 3 } ∧
      exec .dec s = .next { s.withActive (BitVec.ofNat 16 (s.active.toNat + 65535)) with pc := s.pc + 3 }

/-- DXY divides unsigned; a zero divisor writes 0 and sets bit 5 (R147; decisions D7, D8). -/
def Obligations.DxyDividesAndFlagsZero : Prop :=
  ∀ s : State, s.em = 0 →
    (s.y ≠ 0 → exec .dxy s = .next { s.withActive (BitVec.ofNat 16 (s.x.toNat / s.y.toNat)) with pc := s.pc + 3 }) ∧
      (s.y = 0 → ∃ st, exec .dxy s = .next { s.withActive 0 with status := st, pc := s.pc + 3 } ∧
        OnlyBit st s.status 5 true)

/-- EQU writes bit 0 by equality and no other bit; with EM = 1 it is refused (R148). That an instruction outside its mode is
refused is decision D6 and conflict C6 (log 25). -/
def Obligations.EquWritesBitZero : Prop :=
  ∀ s : State,
    (s.em = 0 → ∃ p st, AdvancesTo s p ∧ exec .equ s = .next { s with status := st, pc := p } ∧
      OnlyBit st s.status 0 (decide (s.x = s.y))) ∧
    (s.em = 1 → ∃ r, exec .equ s = .refused r)

/-- LEQ and CMP write bits 0 to 3 by an unsigned comparison; bit 0 is less-than after LEQ, equality after CMP (R149, R200;
decision D7). -/
def Obligations.LeqAndCmpCompareUnsigned : Prop :=
  ∀ s : State,
    (∃ st, exec .cmp s = .next { s with status := st, pc := s.pc + 3 } ∧ st.getLsbD 0 = decide (s.x = s.y) ∧
      st.getLsbD 1 = decide (s.x.toNat < s.y.toNat) ∧ st.getLsbD 2 = decide (s.y.toNat < s.x.toNat) ∧
      st.getLsbD 3 = decide (s.x ≠ s.y) ∧ ∀ j, 4 ≤ j → st.getLsbD j = s.status.getLsbD j) ∧
      (s.em = 0 →
        ∃ st, exec .leq s = .next { s with status := st, pc := s.pc + 3 } ∧
          st.getLsbD 0 = decide (s.x.toNat < s.y.toNat) ∧ st.getLsbD 1 = decide (s.x.toNat < s.y.toNat) ∧
          st.getLsbD 2 = decide (s.y.toNat < s.x.toNat) ∧ st.getLsbD 3 = decide (s.x ≠ s.y) ∧
          ∀ j, 4 ≤ j → st.getLsbD j = s.status.getLsbD j)

/-- JPZ jumps when bit 0 is 0, JNZ when it is 1 (R150, R151; decision D11). -/
def Obligations.JpzAndJnzTestBitZero : Prop :=
  ∀ (s : State) (a : Word), s.em = 0 →
    exec (.jpz a) s = .next { s with pc := if s.status.getLsbD 0 = false then a else s.pc + 3 } ∧
      exec (.jnz a) s = .next { s with pc := if s.status.getLsbD 0 = true then a else s.pc + 3 }

/-- JMP jumps, in either mode (R152). -/
def Obligations.JmpJumps : Prop :=
  ∀ (s : State) (a : Word), exec (.jmp a) s = .next { s with pc := a }

/-- CLR clears all eight STATUS bits; with EM = 1 it is refused (R153). That an instruction outside its mode is refused is
decision D6 and conflict C6 (log 25). -/
def Obligations.ClrClearsStatus : Prop :=
  ∀ s : State,
    (s.em = 0 → ∃ p, AdvancesTo s p ∧ exec .clr s = .next { s with status := 0, pc := p }) ∧
    (s.em = 1 → ∃ r, exec .clr s = .refused r)

/-- HLT completes with bit 6 set, and the CPU then runs nothing more (R31, R154; decision D31). -/
def Obligations.HltHalts : Prop :=
  ∀ s : State, ∃ st, exec .hlt s = .next { s with status := st, pc := s.pc + 3 } ∧ OnlyBit st s.status 6 true ∧
    ∀ k, Reaches k { s with status := st, pc := s.pc + 3 } { s with status := st, pc := s.pc + 3 }

/-- BSL doubles the active register modulo 65536, BSR halves it (R155, R156; decisions D7, D9). -/
def Obligations.BslAndBsrShiftByOne : Prop :=
  ∀ s : State, s.em = 0 →
    exec .bsl s = .next { s.withActive (BitVec.ofNat 16 (s.active.toNat * 2)) with pc := s.pc + 3 } ∧
      exec .bsr s = .next { s.withActive (BitVec.ofNat 16 (s.active.toNat / 2)) with pc := s.pc + 3 }

/-- The legacy AND, ORA and XOR combine X and Y bit by bit into the active register; with EM = 1 they are refused
(R157, R158, R159). That an instruction outside its mode is refused is decision D6 and conflict C6 (log 25). -/
def Obligations.LegacyLogicCombinesXAndY : Prop :=
  ∀ s : State,
    (s.em = 0 → ∃ p, AdvancesTo s p ∧
      exec .andLegacy s = .next { s.withActive (s.x &&& s.y) with pc := p } ∧
      exec .ora s = .next { s.withActive (s.x ||| s.y) with pc := p } ∧
      exec .xorLegacy s = .next { s.withActive (s.x ^^^ s.y) with pc := p }) ∧
    (s.em = 1 → ∀ i, i = .andLegacy ∨ i = .ora ∨ i = .xorLegacy → ∃ r, exec i s = .refused r)

/-- ILM loads the active register from the address it holds (R161; decision D13). -/
def Obligations.IlmLoadsThroughTheActiveRegister : Prop :=
  ∀ s : State, s.em = 0 →
    (s.status.getLsbD 4 = false → exec .ilm s = .next { s with x := s.memRead s.x, pc := s.pc + 3 }) ∧
      (s.status.getLsbD 4 = true → exec .ilm s = .next { s with y := s.memRead s.y, pc := s.pc + 3 })

/-! ## Data moves -/

/-- MOV copies a register or an immediate into X, Y or SP (R181; decisions D15, D16, D17). -/
def Obligations.MovCopies : Prop :=
  ∀ (s : State) (src : Src) (v : Word), movValue s src = some v →
    exec (.mov src .x) s = .next { s with x := v, pc := s.pc + 3 } ∧
      exec (.mov src .y) s = .next { s with y := v, pc := s.pc + 3 } ∧
      exec (.mov src .sp) s = .next { s with sp := v, pc := s.pc + 3 }

/-- MOV to EM takes 0 and 1 and refuses every other value (R38, R181; decisions D15, D24). -/
def Obligations.MovToEmTakesZeroAndOne : Prop :=
  ∀ (s : State) (src : Src) (v : Word), movValue s src = some v →
    (v.toNat ≤ 1 → exec (.mov src .em) s = .next { s with em := v, pc := s.pc + 3 }) ∧
      (1 < v.toNat → exec (.mov src .em) s = .refused .emValue)

/-- STR stores a register or an immediate at a direct or indirect address outside ROM; into ROM it is refused (R182;
decisions D14, D15, D28). -/
def Obligations.StrStoresOneWord : Prop :=
  ∀ (s : State) (src : Src) (dst : MemOp) (v : Word), moiValue s src = some v →
    (¬ InRom (memAddress s dst) → ∃ t, exec (.str src dst) s = .next t ∧ StoredAt s t (memAddress s dst) v) ∧
      (InRom (memAddress s dst) → exec (.str src dst) s = .refused .romStore)

/-- LOD loads X or Y from a direct or indirect address, ROM and VRAM included (R183; decisions D14, D15). -/
def Obligations.LodLoadsOneWord : Prop :=
  ∀ (s : State) (src : MemOp),
    exec (.lod src .x) s = .next { s with x := s.memRead (memAddress s src), pc := s.pc + 3 } ∧
      exec (.lod src .y) s = .next { s with y := s.memRead (memAddress s src), pc := s.pc + 3 }

/-! ## Jumps of V1.5 -/

/-- JEQ, JNE, JLT and JGT jump when bit 0, 3, 1 and 2 of STATUS is 1 (R201, R202, R203, R204). Where the following
instruction lies beyond 0xFFFF, `StraightLineAdvancesByThree` says where an untaken jump leads (decision D4, log 19). -/
def Obligations.EcjiJumpsTestTheirBit : Prop :=
  ∀ (s : State) (a : Word), ∃ p, AdvancesTo s p ∧
    exec (.jeq a) s = .next { s with pc := if s.status.getLsbD 0 = true then a else p } ∧
    exec (.jne a) s = .next { s with pc := if s.status.getLsbD 3 = true then a else p } ∧
    exec (.jlt a) s = .next { s with pc := if s.status.getLsbD 1 = true then a else p } ∧
    exec (.jgt a) s = .next { s with pc := if s.status.getLsbD 2 = true then a else p }

/-- JLE tests bits 1 and 0, JGE bits 2 and 0 (R205, R206; decision D35). -/
def Obligations.JleAndJgeTestTwoBits : Prop :=
  ∀ (s : State) (a : Word),
    exec (.jle a) s =
        .next { s with pc := if s.status.getLsbD 1 = true ∨ s.status.getLsbD 0 = true then a else s.pc + 3 } ∧
      exec (.jge a) s =
        .next { s with pc := if s.status.getLsbD 2 = true ∨ s.status.getLsbD 0 = true then a else s.pc + 3 }

/-! ## ALU of V1.6 -/

/-- ADD, SUB, MUL modulo 65536 and AND, OR, XOR bit by bit, into X or Y, from every source (R221 to R223, R225 to R227;
STATUS as a source: decision D17). -/
def Obligations.AluWritesTheResult : Prop :=
  ∀ (s : State) (src : Src) (d : Reg) (v : Word), moiValue s src = some v → d = .x ∨ d = .y →
    exec (.add src d) s =
        .next { s.withGeneral d (BitVec.ofNat 16 ((s.general d).toNat + v.toNat)) with pc := s.pc + 3 } ∧
      exec (.sub src d) s =
        .next { s.withGeneral d (BitVec.ofNat 16 ((s.general d).toNat + 65536 - v.toNat)) with pc := s.pc + 3 } ∧
      exec (.mul src d) s =
        .next { s.withGeneral d (BitVec.ofNat 16 ((s.general d).toNat * v.toNat)) with pc := s.pc + 3 } ∧
      exec (.and src d) s = .next { s.withGeneral d (s.general d &&& v) with pc := s.pc + 3 } ∧
      exec (.or src d) s = .next { s.withGeneral d (s.general d ||| v) with pc := s.pc + 3 } ∧
      exec (.xor src d) s = .next { s.withGeneral d (s.general d ^^^ v) with pc := s.pc + 3 }

/-- DIV divides unsigned; a zero divisor writes 0 and sets bit 5 (R224; decisions D7, D8). -/
def Obligations.DivDividesAndFlagsZero : Prop :=
  ∀ (s : State) (src : Src) (d : Reg) (v : Word), moiValue s src = some v → d = .x ∨ d = .y →
    (v ≠ 0 →
      exec (.div src d) s =
        .next { s.withGeneral d (BitVec.ofNat 16 ((s.general d).toNat / v.toNat)) with pc := s.pc + 3 }) ∧
      (v = 0 → ∃ st, exec (.div src d) s = .next { s.withGeneral d 0 with status := st, pc := s.pc + 3 } ∧
        OnlyBit st s.status 5 true)

/-- SHL and SHR by at most 15, the right shift logical (R228, R229; decisions D7, D18). -/
def Obligations.ShiftsBelowSixteen : Prop :=
  ∀ (s : State) (src : Src) (d : Reg) (v : Word), moiValue s src = some v → d = .x ∨ d = .y → v.toNat ≤ 15 →
    exec (.shl src d) s =
        .next { s.withGeneral d (BitVec.ofNat 16 ((s.general d).toNat * 2 ^ v.toNat)) with pc := s.pc + 3 } ∧
      exec (.shr src d) s =
        .next { s.withGeneral d (BitVec.ofNat 16 ((s.general d).toNat / 2 ^ v.toNat)) with pc := s.pc + 3 }

/-- The model's choice for SHL and SHR by 16 or more (log 11): they complete, some word is written to DST, which one is free,
and nothing else changes but pc. The spec gives no rule there: R228, R229 and decision D18 let a model refuse the case or draw
the result, and R287 lists it as a refusal. -/
def Obligations.ShiftsBySixteenOrMoreComplete : Prop :=
  ∀ (s : State) (src : Src) (d : Reg) (v : Word), moiValue s src = some v → d = .x ∨ d = .y → 16 ≤ v.toNat →
    ∃ l r, exec (.shl src d) s = .next { s.withGeneral d l with pc := s.pc + 3 } ∧
      exec (.shr src d) s = .next { s.withGeneral d r with pc := s.pc + 3 }

/-- A register operand outside the instruction's set is refused (R21, R110; decision D16, log 24). -/
def Obligations.RegistersOutsideTheSetAreRefused : Prop :=
  ∀ (s : State) (src : Src) (m : MemOp) (r : Reg),
    ((moiValue s src = none ∨ (r ≠ .x ∧ r ≠ .y)) →
      ∀ make : Src → Reg → Instr,
        make ∈ [Instr.add, Instr.sub, Instr.mul, Instr.div, Instr.and, Instr.or, Instr.xor, Instr.shl, Instr.shr] →
          exec (make src r) s = .refused .registerOperand) ∧
      ((movValue s src = none ∨ r = .pc ∨ r = .status ∨ r = .cyc) →
        exec (.mov src r) s = .refused .registerOperand) ∧
      (moiValue s src = none →
        exec (.str src m) s = .refused .registerOperand ∧ exec (.wait src) s = .refused .registerOperand) ∧
      (r ≠ .x → r ≠ .y →
        exec (.lod m r) s = .refused .registerOperand ∧
          (s.em = 1 → ∀ p : Fin 8,
            exec (.portIn (BitVec.ofNat 16 p.val) r) s = .refused .registerOperand ∧
              exec (.portOut r (BitVec.ofNat 16 p.val)) s = .refused .registerOperand)) ∧
      (stackValue s r = none →
        exec (.push r) s = .refused .registerOperand ∧ exec (.pop r) s = .refused .registerOperand)

/-! ## Stack -/

/-- PUSH decrements SP and stores the register there, outside ROM; into ROM it is refused (R240; decisions D19, D20, D28,
log 4). -/
def Obligations.PushStoresBelowSp : Prop :=
  ∀ (s : State) (r : Reg) (v : Word), stackValue s r = some v →
    (¬ InRom (s.sp - 1) → ∃ t, exec (.push r) s = .next t ∧ StoredAt { s with sp := s.sp - 1 } t (s.sp - 1) v) ∧
      (InRom (s.sp - 1) → exec (.push r) s = .refused .romStore)

/-- POP loads the register from SP and increments SP; POP SP leaves the word popped, POP STATUS takes its low byte (R241;
decisions D17, D19, D20, log 4). -/
def Obligations.PopLoadsAtSp : Prop :=
  ∀ s : State,
    exec (.pop .x) s = .next { s with x := s.memRead s.sp, sp := s.sp + 1, pc := s.pc + 3 } ∧
      exec (.pop .y) s = .next { s with y := s.memRead s.sp, sp := s.sp + 1, pc := s.pc + 3 } ∧
      exec (.pop .sp) s = .next { s with sp := s.memRead s.sp, pc := s.pc + 3 } ∧
      exec (.pop .status) s =
        .next { s with status := (s.memRead s.sp).setWidth 8, sp := s.sp + 1, pc := s.pc + 3 }

/-- PUSH X then POP Y copies X to Y and leaves SP as it was (R240, R241; decision D19; spec/95_test_vectors.md 2.9). -/
def Obligations.PushThenPopCopies : Prop :=
  ∀ s : State, ¬ InRom (s.sp - 1) →
    ∃ t u, exec (.push .x) s = .next t ∧ exec (.pop .y) t = .next u ∧ u.y = s.x ∧ u.x = s.x ∧ u.sp = s.sp ∧
      u.memRead (s.sp - 1) = s.x ∧ (∀ b, b ≠ s.sp - 1 → u.memRead b = s.memRead b) ∧ u.status = s.status ∧
      u.em = s.em ∧ u.pc = s.pc + 6

/-! ## Timing -/

/-- WAIT of 0 completes at once; of more it stalls the CPU with CYC captured. VBLANK stalls the CPU (R250, R252; decisions
D22, D23, log 22). -/
def Obligations.WaitAndVblankStall : Prop :=
  ∀ (s : State) (src : Src) (n : Word), moiValue s src = some n →
    (n = 0 → exec (.wait src) s = .next { s with pc := s.pc + 3 }) ∧
      (n ≠ 0 → exec (.wait src) s = .next { s with stall := .waiting s.cyc n }) ∧
      exec .vblank s = .next { s with stall := .vblankWait }

/-- A WAIT ends: pc, the registers and memory stand still while CYC counts one by one, and as soon as (CYC - start) mod
65536 reaches n the CPU runs on at the following instruction (R250, R251; decision D22, log 22). -/
def Obligations.WaitEndsWhenItsCyclesHavePassed : Prop :=
  ∀ (s : State) (start n : Word), s.status.getLsbD 6 = false → s.stall = .waiting start n →
    (s.cyc - start).toNat < n.toNat →
      (∀ k, k < n.toNat - (s.cyc - start).toNat →
        ∃ t, Reaches k s t ∧ t.stall = .waiting start n ∧ t.pc = s.pc ∧ t.cyc = s.cyc + BitVec.ofNat 16 k ∧
          SameFrozen s t) ∧
      ∃ t, Reaches (n.toNat - (s.cyc - start).toNat) s t ∧ t.stall = .running ∧ t.pc = s.pc + 3 ∧
        t.cyc = start + n + BitVec.ofNat 16
          (Config.extraCycles (s.now + (n.toNat - (s.cyc - start).toNat) - 1)) ∧ SameFrozen s t

/-- A VBLANK ends with the first signal the display raises after it began, and not before; all but CYC stands still
(R252, R253; decision D23). The signal of the present step is an input; those of later steps are free but for the fairness
that R252 has a model assume of the display (log 12): therefore every VBLANK ends. One cycle per step is log 22. -/
def Obligations.VblankEndsWithTheNextSignal : Prop :=
  ∀ s : State, s.status.getLsbD 6 = false → s.stall = .vblankWait →
    (∀ k : Nat, (∀ j, j < k → (if j = 0 then s.inputs.vblank else vblankRaised (s.now + j)) = false) →
      (∃ t, Reaches k s t ∧ t.stall = .vblankWait ∧ t.pc = s.pc ∧ t.cyc = s.cyc + BitVec.ofNat 16 k ∧
        SameFrozen s t) ∧
      ((if k = 0 then s.inputs.vblank else vblankRaised (s.now + k)) = true →
        ∃ t, Reaches (k + 1) s t ∧ t.stall = .running ∧ t.pc = s.pc + 3 ∧ SameFrozen s t)) ∧
    ∃ k t, Reaches k s t ∧ t.stall = .running ∧ t.pc = s.pc + 3 ∧ SameFrozen s t

/-! ## Ports -/

/-- IN reads the present state of the device on the port into X or Y, OUT sends X or Y to the port and changes nothing
else of the CPU's; a port above 7 is refused (R77, R260, R261; decision D25, log 12). -/
def Obligations.PortsReadAndWrite : Prop :=
  ∀ (s : State) (p : Fin 8) (q : Word), s.em = 1 →
    exec (.portIn (BitVec.ofNat 16 p.val) .x) s = .next { s with x := s.inputs.ports[p], pc := s.pc + 3 } ∧
      exec (.portIn (BitVec.ofNat 16 p.val) .y) s = .next { s with y := s.inputs.ports[p], pc := s.pc + 3 } ∧
      exec (.portOut .x (BitVec.ofNat 16 p.val)) s =
        .next { s with outputs := s.outputs ++ [.portWrite p s.x], pc := s.pc + 3 } ∧
      exec (.portOut .y (BitVec.ofNat 16 p.val)) s =
        .next { s with outputs := s.outputs ++ [.portWrite p s.y], pc := s.pc + 3 } ∧
      (7 < q.toNat → ∀ r, r = .x ∨ r = .y →
        exec (.portIn q r) s = .refused .portNumber ∧ exec (.portOut r q) s = .refused .portNumber)

/-- The bits of a word read from a VF16Pad are its buttons, in the order of R300, whatever bits 15:8 are (decision D25). -/
def Obligations.PadBitsAreTheButtons : Prop :=
  ∀ (p : Pad) (high : Byte), padOfWord (padWord p high) = p ∧
    (padWord p high).toNat % 256 =
      p.up.toNat + 2 * p.down.toNat + 4 * p.left.toNat + 8 * p.right.toNat + 16 * p.a.toNat + 32 * p.b.toNat +
        64 * p.start.toNat + 128 * p.select.toNat

/-! ## Debug opcodes -/

/-- DBG_LGC logs the character of the active register, DBG_MEM prints some text, DBG_INP prompts the user and puts the answer
in the active register; until the user answers it blocks, pc and the registers unchanged (R270, R271, R272; decision D26,
log 14). That the operand words play no part, which R123 does not state, is the model's choice (log 14). That CYC counts in a
blocked CPU is deduced from R34 (log 14); that the step that blocks takes no cycle and each further one takes one, and what
the free cycles of the completing one are, is the model's choice (log 13, 22). -/
def Obligations.DebugOpcodesUseTheConsole : Prop :=
  ∀ s : State,
    (s.em = 0 →
      exec .dbgLgc s =
          .next { s with outputs := s.outputs ++ [.console (.logged (charOf s.active))], pc := s.pc + 3 } ∧
        (∃ text, exec .dbgMem s = .next { s with outputs := s.outputs ++ [.console (.dumped text)], pc := s.pc + 3 }) ∧
        (∀ v, s.inputs.typed = some v →
          exec .dbgInp s =
            .next
              { s.withActive v with
                outputs := s.outputs ++ [.console .prompted, .console (.answered v)], pc := s.pc + 3 }) ∧
        (s.inputs.typed = none →
          exec .dbgInp s = .next { s with outputs := s.outputs ++ [.console .prompted], stall := .prompting })) ∧
    (s.status.getLsbD 6 = false → s.stall = .prompting →
      (s.inputs.typed = none → step s = .next (s.elapse 1)) ∧
        ∀ v, s.inputs.typed = some v →
          step s = .next (State.elapse
            { s.withActive v with
              outputs := s.outputs ++ [.console (.answered v)], pc := s.pc + 3, stall := .running }
            (1 + Config.extraCycles s.now)))

/-- The character encoding of the debug console (R273). -/
def Obligations.DebugCharactersFollowTheTable : Prop :=
  charOf 0 = '#' ∧ charOf 27 = '-' ∧ charOf 38 = '\n' ∧ charOf 39 = ' ' ∧
    (∀ n, n < 26 → charOf (BitVec.ofNat 16 (1 + n)) = Char.ofNat (65 + n)) ∧
    (∀ n, n < 10 → charOf (BitVec.ofNat 16 (28 + n)) = Char.ofNat (48 + n)) ∧
    (∀ code : Word, 40 ≤ code.toNat → charOf code = '?') ∧
    (∀ code : Word, code.toNat < 40 → codeOf (charOf code) = code) ∧
    (∀ c : Char, (∀ code : Word, code.toNat < 40 → charOf code ≠ c) → codeOf c = 40)

/-! ## Loading -/

/-- A legacy image of up to 4096 words stands at 0x0000 in the initial state and an extended one at its ROM start, the
rest is as after reset; a larger one is rejected (R330, R331, R332, R334; decisions D28, D37, log 18). -/
def Obligations.LoaderPlacesTheImage : Prop :=
  ∀ (ws : List Word) (start : Word) (mapper : Byte),
    (ws.length ≤ 0x1000 →
      ∃ s, bootState (legacyFile ws) = .ok s ∧ s = { State.reset with mem := s.mem } ∧
        (∀ (k : Nat) (h : k < ws.length), s.mem.read k = ws[k]) ∧
        (∀ a, ws.length ≤ a → s.mem.read a = State.reset.mem.read a)) ∧
      (0x1000 < ws.length → bootState (legacyFile ws) = .error .tooLarge) ∧
      (start.toNat + ws.length ≤ 0x1000 → mapper.toNat ≤ 1 →
        ∃ s, bootState (extendedFile mapper start ws) = .ok s ∧ s = { State.reset with mem := s.mem } ∧
          (∀ (k : Nat) (h : k < ws.length), s.mem.read (start.toNat + k) = ws[k]) ∧
          (∀ a, a < start.toNat ∨ start.toNat + ws.length ≤ a → s.mem.read a = State.reset.mem.read a)) ∧
      (0x1000 < start.toNat + ws.length → ws.length < 65536 → mapper.toNat ≤ 1 →
        bootState (extendedFile mapper start ws) = .error .tooLarge)

/-! ## The display -/

/-- The display takes each pixel from four bits of one word of VRAM, the top-left one from the word at 0xFFFF, and goes right,
then down, toward lower addresses (R68, R295). How many pixels share a word, two to four, and which four bits each has are
open (decision D29); that a pixel is four neighbouring bits of one word is the model's choice (log 17). -/
def Obligations.PicturesBeginAtTheTopOfVram : Prop :=
  ∀ (s : State) (row col : Fin 100),
    pixelWord 0 0 = 0 ∧ (∀ k, s.frameWord k = s.mem.read (0xFFFF - k)) ∧ 0xEC78 ≤ 0xFFFF - pixelWord row col ∧
      (∃ n : Fin 4, s.displayPixel row col = (s.mem.read (0xFFFF - pixelWord row col)).extractLsb' (4 * n.val) 4) ∧
      (∀ row' col' : Fin 100, row.val * 100 + col.val < row'.val * 100 + col'.val →
        pixelWord row col ≤ pixelWord row' col' ∧ pixelWord row' col' - pixelWord row col ≤
          (row'.val * 100 + col'.val) - (row.val * 100 + col.val) ∧
        (row.val * 100 + col.val + 4 ≤ row'.val * 100 + col'.val → pixelWord row col < pixelWord row' col'))
end

