-- ==== Sys2Proof/Laws/Agents.lean ====
section
/-! SUPPORT. What holds of the other agents whatever the free values are. -/

namespace Sys2Proof.Machine

/-- In each step that passes without a signal the next one comes a step nearer. -/
theorem vblankDue_add (now k : Nat) (h : k ≤ vblankDue now) : vblankDue (now + k) = vblankDue now - k := by
  induction k with
  | zero => rfl
  | succ k ih =>
    have step : vblankDue (now + (k + 1)) =
        if vblankDue (now + k) = 0 then Config.vblankGap (now + k + 1) else vblankDue (now + k) - 1 := rfl
    rw [step, ih (by omega), if_neg (by omega)]
    omega

/-- The display is fair. -/
theorem vblankRaised_fair : FairDisplay vblankRaised := fun now =>
  ⟨now + vblankDue now, Nat.le_add_right _ _, by simp [vblankRaised, vblankDue_add now _ (Nat.le_refl _)]⟩

/-- A word of VRAM holds two, three or four pixels. -/
theorem pixelsPerWord_bounds : 2 ≤ pixelsPerWord ∧ pixelsPerWord ≤ 4 := by
  unfold pixelsPerWord
  omega

/-- What a VF16Pad presents is the buttons held on it. -/
theorem deviceState_pad (port : Fin 8) (now : Nat) :
    deviceState .vf16Pad port now = padWord (padHeld port now) (Config.padUpperByte port now) := rfl

end Sys2Proof.Machine
end

