-- ==== Sys2Proof/Laws/Flags.lean ====
section
/-! SUPPORT. What the flag computations do to each bit of STATUS. -/

namespace Sys2Proof.Machine

/-- A bit of STATUS after one bit was written. -/
theorem getLsbD_withBit (st : Byte) (i j : Nat) (b : Bool) (hi : i < 8) :
    (withBit st i b).getLsbD j = if j = i then b else st.getLsbD j := by
  by_cases hj : j < 8
  · unfold withBit
    by_cases e : j = i
    · subst e
      cases b <;> simp [hj]
    · have : j < i ∨ ¬ j - i = 0 := by omega
      have : i ≤ j → ¬ j - i = 0 := by omega
      cases b <;> simp_all
  · have high : ∀ w : Byte, w.getLsbD j = false := fun w => BitVec.getLsbD_of_ge w j (by omega)
    have : j ≠ i := by omega
    simp [high, this]

end Sys2Proof.Machine
end

