-- ==== Sys2Proof/Laws/Memory.lean ====
section
/-! SUPPORT. The laws of memory: a write is read back, leaves every other word alone and keeps the canonical form. -/

namespace Sys2Proof.Machine

/-- Looking up the address just written. -/
theorem lookupCell_writeCell_same (cells : List (Nat × Word)) (a : Nat) (v : Word) :
    lookupCell (writeCell cells a v) a = some v := by
  induction cells with
  | nil => simp [writeCell, lookupCell]
  | cons c rest ih =>
    obtain ⟨b, w⟩ := c
    unfold writeCell
    split
    · simp [lookupCell]
    · split
      · simp [lookupCell]
      · next h => simp [lookupCell, Ne.symm h, ih]

/-- Looking up another address than the one just written. -/
theorem lookupCell_writeCell_other (cells : List (Nat × Word)) (a b : Nat) (v : Word) (h : b ≠ a) :
    lookupCell (writeCell cells a v) b = lookupCell cells b := by
  induction cells with
  | nil => simp [writeCell, lookupCell, Ne.symm h]
  | cons c rest ih =>
    obtain ⟨k, w⟩ := c
    unfold writeCell
    split
    · simp [lookupCell, Ne.symm h]
    · split
      · next e => subst e; simp [lookupCell, Ne.symm h]
      · simp [lookupCell, ih]

/-- A read after a write to the same address gives the word written. -/
@[simp] theorem Memory.read_write_same (m : Memory) (a : Nat) (v : Word) : (m.write a v).read a = v := by
  simp [Memory.read, Memory.write, lookupCell_writeCell_same]

/-- A write leaves every other address alone. -/
theorem Memory.read_write_other (m : Memory) (a b : Nat) (v : Word) (h : b ≠ a) :
    (m.write a v).read b = m.read b := by
  simp [Memory.read, Memory.write, lookupCell_writeCell_other _ _ _ _ h]

/-- A write keeps the addresses rising. -/
theorem risingFrom_writeCell (cells : List (Nat × Word)) (low a : Nat) (v : Word) (hl : low ≤ a)
    (h : risingFrom low cells = true) : risingFrom low (writeCell cells a v) = true := by
  induction cells generalizing low with
  | nil => simp [writeCell, risingFrom, hl]
  | cons c rest ih =>
    obtain ⟨b, w⟩ := c
    simp only [risingFrom, Bool.and_eq_true, decide_eq_true_eq] at h
    unfold writeCell
    split
    · next hab => simp [risingFrom, hl, h.2, Nat.succ_le_of_lt hab]
    · split
      · next e => subst e; simp [risingFrom, hl, h.2]
      · next h1 h2 => simp [risingFrom, h.1, ih (b + 1) (by omega) h.2]

/-- A write at an address of the machine keeps every address one of the machine's. -/
theorem all_writeCell (cells : List (Nat × Word)) (a : Nat) (v : Word) (ha : a < 65536)
    (h : cells.all (fun c => decide (c.1 < 65536)) = true) :
    (writeCell cells a v).all (fun c => decide (c.1 < 65536)) = true := by
  induction cells with
  | nil => simp [writeCell, ha]
  | cons c rest ih =>
    obtain ⟨b, w⟩ := c
    simp only [List.all_cons, Bool.and_eq_true] at h
    unfold writeCell
    split
    · simp only [List.all_cons, Bool.and_eq_true]
      exact ⟨decide_eq_true ha, h.1, h.2⟩
    · split
      · simp only [List.all_cons, Bool.and_eq_true]
        exact ⟨decide_eq_true ha, h.2⟩
      · simp only [List.all_cons, Bool.and_eq_true]
        exact ⟨h.1, ih h.2⟩

/-- A write at an address of the machine keeps the canonical form. -/
theorem Memory.wf_write (m : Memory) (a : Nat) (v : Word) (ha : a < 65536) (h : m.wf = true) :
    (m.write a v).wf = true := by
  simp only [Memory.wf, Bool.and_eq_true] at h ⊢
  exact ⟨risingFrom_writeCell _ _ _ _ (Nat.zero_le _) h.1, all_writeCell _ _ _ ha h.2⟩

/-- The loader's copy keeps the canonical form. -/
theorem Memory.wf_writeAll (m : Memory) (a : Nat) (ws : List Word) (ha : a + ws.length ≤ 65536)
    (h : m.wf = true) : (m.writeAll a ws).wf = true := by
  induction ws generalizing m a with
  | nil => exact h
  | cons w rest ih =>
    simp only [List.length_cons] at ha
    exact ih _ _ (by omega) (Memory.wf_write _ _ _ (by omega) h)

/-- Memory right after reset is in canonical form. -/
theorem reset_mem_wf : State.reset.mem.wf = true := by decide

end Sys2Proof.Machine
end

