-- ==== Sys2Proof/Laws/State.lean ====
section
/-! SUPPORT. One lemma per field per update of the state, each true by rfl. -/

namespace Sys2Proof.Machine

variable (s : State)

/-! ## setX -/

@[simp] theorem State.setX_x (v : Word) : (s.setX v).x = v := rfl
@[simp] theorem State.setX_y (v : Word) : (s.setX v).y = s.y := rfl
@[simp] theorem State.setX_pc (v : Word) : (s.setX v).pc = s.pc := rfl
@[simp] theorem State.setX_status (v : Word) : (s.setX v).status = s.status := rfl
@[simp] theorem State.setX_sp (v : Word) : (s.setX v).sp = s.sp := rfl
@[simp] theorem State.setX_cyc (v : Word) : (s.setX v).cyc = s.cyc := rfl
@[simp] theorem State.setX_em (v : Word) : (s.setX v).em = s.em := rfl
@[simp] theorem State.setX_mem (v : Word) : (s.setX v).mem = s.mem := rfl
@[simp] theorem State.setX_stall (v : Word) : (s.setX v).stall = s.stall := rfl
@[simp] theorem State.setX_outputs (v : Word) : (s.setX v).outputs = s.outputs := rfl
@[simp] theorem State.setX_portWrites (v : Word) : (s.setX v).portWrites = s.portWrites := rfl
@[simp] theorem State.setX_console (v : Word) : (s.setX v).console = s.console := rfl
@[simp] theorem State.setX_inputs (v : Word) : (s.setX v).inputs = s.inputs := rfl
@[simp] theorem State.setX_now (v : Word) : (s.setX v).now = s.now := rfl

/-! ## setY -/

@[simp] theorem State.setY_x (v : Word) : (s.setY v).x = s.x := rfl
@[simp] theorem State.setY_y (v : Word) : (s.setY v).y = v := rfl
@[simp] theorem State.setY_pc (v : Word) : (s.setY v).pc = s.pc := rfl
@[simp] theorem State.setY_status (v : Word) : (s.setY v).status = s.status := rfl
@[simp] theorem State.setY_sp (v : Word) : (s.setY v).sp = s.sp := rfl
@[simp] theorem State.setY_cyc (v : Word) : (s.setY v).cyc = s.cyc := rfl
@[simp] theorem State.setY_em (v : Word) : (s.setY v).em = s.em := rfl
@[simp] theorem State.setY_mem (v : Word) : (s.setY v).mem = s.mem := rfl
@[simp] theorem State.setY_stall (v : Word) : (s.setY v).stall = s.stall := rfl
@[simp] theorem State.setY_outputs (v : Word) : (s.setY v).outputs = s.outputs := rfl
@[simp] theorem State.setY_portWrites (v : Word) : (s.setY v).portWrites = s.portWrites := rfl
@[simp] theorem State.setY_console (v : Word) : (s.setY v).console = s.console := rfl
@[simp] theorem State.setY_inputs (v : Word) : (s.setY v).inputs = s.inputs := rfl
@[simp] theorem State.setY_now (v : Word) : (s.setY v).now = s.now := rfl

/-! ## setPc -/

@[simp] theorem State.setPc_x (v : Word) : (s.setPc v).x = s.x := rfl
@[simp] theorem State.setPc_y (v : Word) : (s.setPc v).y = s.y := rfl
@[simp] theorem State.setPc_pc (v : Word) : (s.setPc v).pc = v := rfl
@[simp] theorem State.setPc_status (v : Word) : (s.setPc v).status = s.status := rfl
@[simp] theorem State.setPc_sp (v : Word) : (s.setPc v).sp = s.sp := rfl
@[simp] theorem State.setPc_cyc (v : Word) : (s.setPc v).cyc = s.cyc := rfl
@[simp] theorem State.setPc_em (v : Word) : (s.setPc v).em = s.em := rfl
@[simp] theorem State.setPc_mem (v : Word) : (s.setPc v).mem = s.mem := rfl
@[simp] theorem State.setPc_stall (v : Word) : (s.setPc v).stall = s.stall := rfl
@[simp] theorem State.setPc_outputs (v : Word) : (s.setPc v).outputs = s.outputs := rfl
@[simp] theorem State.setPc_portWrites (v : Word) : (s.setPc v).portWrites = s.portWrites := rfl
@[simp] theorem State.setPc_console (v : Word) : (s.setPc v).console = s.console := rfl
@[simp] theorem State.setPc_inputs (v : Word) : (s.setPc v).inputs = s.inputs := rfl
@[simp] theorem State.setPc_now (v : Word) : (s.setPc v).now = s.now := rfl

/-! ## setStatus -/

@[simp] theorem State.setStatus_x (v : Byte) : (s.setStatus v).x = s.x := rfl
@[simp] theorem State.setStatus_y (v : Byte) : (s.setStatus v).y = s.y := rfl
@[simp] theorem State.setStatus_pc (v : Byte) : (s.setStatus v).pc = s.pc := rfl
@[simp] theorem State.setStatus_status (v : Byte) : (s.setStatus v).status = v := rfl
@[simp] theorem State.setStatus_sp (v : Byte) : (s.setStatus v).sp = s.sp := rfl
@[simp] theorem State.setStatus_cyc (v : Byte) : (s.setStatus v).cyc = s.cyc := rfl
@[simp] theorem State.setStatus_em (v : Byte) : (s.setStatus v).em = s.em := rfl
@[simp] theorem State.setStatus_mem (v : Byte) : (s.setStatus v).mem = s.mem := rfl
@[simp] theorem State.setStatus_stall (v : Byte) : (s.setStatus v).stall = s.stall := rfl
@[simp] theorem State.setStatus_outputs (v : Byte) : (s.setStatus v).outputs = s.outputs := rfl
@[simp] theorem State.setStatus_portWrites (v : Byte) : (s.setStatus v).portWrites = s.portWrites := rfl
@[simp] theorem State.setStatus_console (v : Byte) : (s.setStatus v).console = s.console := rfl
@[simp] theorem State.setStatus_inputs (v : Byte) : (s.setStatus v).inputs = s.inputs := rfl
@[simp] theorem State.setStatus_now (v : Byte) : (s.setStatus v).now = s.now := rfl

/-! ## setSp -/

@[simp] theorem State.setSp_x (v : Word) : (s.setSp v).x = s.x := rfl
@[simp] theorem State.setSp_y (v : Word) : (s.setSp v).y = s.y := rfl
@[simp] theorem State.setSp_pc (v : Word) : (s.setSp v).pc = s.pc := rfl
@[simp] theorem State.setSp_status (v : Word) : (s.setSp v).status = s.status := rfl
@[simp] theorem State.setSp_sp (v : Word) : (s.setSp v).sp = v := rfl
@[simp] theorem State.setSp_cyc (v : Word) : (s.setSp v).cyc = s.cyc := rfl
@[simp] theorem State.setSp_em (v : Word) : (s.setSp v).em = s.em := rfl
@[simp] theorem State.setSp_mem (v : Word) : (s.setSp v).mem = s.mem := rfl
@[simp] theorem State.setSp_stall (v : Word) : (s.setSp v).stall = s.stall := rfl
@[simp] theorem State.setSp_outputs (v : Word) : (s.setSp v).outputs = s.outputs := rfl
@[simp] theorem State.setSp_portWrites (v : Word) : (s.setSp v).portWrites = s.portWrites := rfl
@[simp] theorem State.setSp_console (v : Word) : (s.setSp v).console = s.console := rfl
@[simp] theorem State.setSp_inputs (v : Word) : (s.setSp v).inputs = s.inputs := rfl
@[simp] theorem State.setSp_now (v : Word) : (s.setSp v).now = s.now := rfl

/-! ## setEm -/

@[simp] theorem State.setEm_x (v : Word) : (s.setEm v).x = s.x := rfl
@[simp] theorem State.setEm_y (v : Word) : (s.setEm v).y = s.y := rfl
@[simp] theorem State.setEm_pc (v : Word) : (s.setEm v).pc = s.pc := rfl
@[simp] theorem State.setEm_status (v : Word) : (s.setEm v).status = s.status := rfl
@[simp] theorem State.setEm_sp (v : Word) : (s.setEm v).sp = s.sp := rfl
@[simp] theorem State.setEm_cyc (v : Word) : (s.setEm v).cyc = s.cyc := rfl
@[simp] theorem State.setEm_em (v : Word) : (s.setEm v).em = v := rfl
@[simp] theorem State.setEm_mem (v : Word) : (s.setEm v).mem = s.mem := rfl
@[simp] theorem State.setEm_stall (v : Word) : (s.setEm v).stall = s.stall := rfl
@[simp] theorem State.setEm_outputs (v : Word) : (s.setEm v).outputs = s.outputs := rfl
@[simp] theorem State.setEm_portWrites (v : Word) : (s.setEm v).portWrites = s.portWrites := rfl
@[simp] theorem State.setEm_console (v : Word) : (s.setEm v).console = s.console := rfl
@[simp] theorem State.setEm_inputs (v : Word) : (s.setEm v).inputs = s.inputs := rfl
@[simp] theorem State.setEm_now (v : Word) : (s.setEm v).now = s.now := rfl

/-! ## setMem -/

@[simp] theorem State.setMem_x (v : Memory) : (s.setMem v).x = s.x := rfl
@[simp] theorem State.setMem_y (v : Memory) : (s.setMem v).y = s.y := rfl
@[simp] theorem State.setMem_pc (v : Memory) : (s.setMem v).pc = s.pc := rfl
@[simp] theorem State.setMem_status (v : Memory) : (s.setMem v).status = s.status := rfl
@[simp] theorem State.setMem_sp (v : Memory) : (s.setMem v).sp = s.sp := rfl
@[simp] theorem State.setMem_cyc (v : Memory) : (s.setMem v).cyc = s.cyc := rfl
@[simp] theorem State.setMem_em (v : Memory) : (s.setMem v).em = s.em := rfl
@[simp] theorem State.setMem_mem (v : Memory) : (s.setMem v).mem = v := rfl
@[simp] theorem State.setMem_stall (v : Memory) : (s.setMem v).stall = s.stall := rfl
@[simp] theorem State.setMem_outputs (v : Memory) : (s.setMem v).outputs = s.outputs := rfl
@[simp] theorem State.setMem_portWrites (v : Memory) : (s.setMem v).portWrites = s.portWrites := rfl
@[simp] theorem State.setMem_console (v : Memory) : (s.setMem v).console = s.console := rfl
@[simp] theorem State.setMem_inputs (v : Memory) : (s.setMem v).inputs = s.inputs := rfl
@[simp] theorem State.setMem_now (v : Memory) : (s.setMem v).now = s.now := rfl

/-! ## setStall -/

@[simp] theorem State.setStall_x (v : Stall) : (s.setStall v).x = s.x := rfl
@[simp] theorem State.setStall_y (v : Stall) : (s.setStall v).y = s.y := rfl
@[simp] theorem State.setStall_pc (v : Stall) : (s.setStall v).pc = s.pc := rfl
@[simp] theorem State.setStall_status (v : Stall) : (s.setStall v).status = s.status := rfl
@[simp] theorem State.setStall_sp (v : Stall) : (s.setStall v).sp = s.sp := rfl
@[simp] theorem State.setStall_cyc (v : Stall) : (s.setStall v).cyc = s.cyc := rfl
@[simp] theorem State.setStall_em (v : Stall) : (s.setStall v).em = s.em := rfl
@[simp] theorem State.setStall_mem (v : Stall) : (s.setStall v).mem = s.mem := rfl
@[simp] theorem State.setStall_stall (v : Stall) : (s.setStall v).stall = v := rfl
@[simp] theorem State.setStall_outputs (v : Stall) : (s.setStall v).outputs = s.outputs := rfl
@[simp] theorem State.setStall_portWrites (v : Stall) : (s.setStall v).portWrites = s.portWrites := rfl
@[simp] theorem State.setStall_console (v : Stall) : (s.setStall v).console = s.console := rfl
@[simp] theorem State.setStall_inputs (v : Stall) : (s.setStall v).inputs = s.inputs := rfl
@[simp] theorem State.setStall_now (v : Stall) : (s.setStall v).now = s.now := rfl

/-! ## emit and sendPort -/

@[simp] theorem State.emit_x (e : ConsoleEvent) : (s.emit e).x = s.x := rfl
@[simp] theorem State.emit_y (e : ConsoleEvent) : (s.emit e).y = s.y := rfl
@[simp] theorem State.emit_pc (e : ConsoleEvent) : (s.emit e).pc = s.pc := rfl
@[simp] theorem State.emit_status (e : ConsoleEvent) : (s.emit e).status = s.status := rfl
@[simp] theorem State.emit_sp (e : ConsoleEvent) : (s.emit e).sp = s.sp := rfl
@[simp] theorem State.emit_cyc (e : ConsoleEvent) : (s.emit e).cyc = s.cyc := rfl
@[simp] theorem State.emit_em (e : ConsoleEvent) : (s.emit e).em = s.em := rfl
@[simp] theorem State.emit_mem (e : ConsoleEvent) : (s.emit e).mem = s.mem := rfl
@[simp] theorem State.emit_stall (e : ConsoleEvent) : (s.emit e).stall = s.stall := rfl
@[simp] theorem State.emit_outputs (e : ConsoleEvent) : (s.emit e).outputs = s.outputs ++ [.console e] := rfl
@[simp] theorem State.emit_portWrites (e : ConsoleEvent) : (s.emit e).portWrites = s.portWrites := by
  simp [State.portWrites, OutputEvent.asPortWrite]
@[simp] theorem State.emit_console (e : ConsoleEvent) : (s.emit e).console = s.console ++ [e] := by
  simp [State.console, OutputEvent.asConsole]
@[simp] theorem State.emit_inputs (e : ConsoleEvent) : (s.emit e).inputs = s.inputs := rfl
@[simp] theorem State.emit_now (e : ConsoleEvent) : (s.emit e).now = s.now := rfl
@[simp] theorem State.sendPort_x (p : Fin 8) (v : Word) : (s.sendPort p v).x = s.x := rfl
@[simp] theorem State.sendPort_y (p : Fin 8) (v : Word) : (s.sendPort p v).y = s.y := rfl
@[simp] theorem State.sendPort_pc (p : Fin 8) (v : Word) : (s.sendPort p v).pc = s.pc := rfl
@[simp] theorem State.sendPort_status (p : Fin 8) (v : Word) : (s.sendPort p v).status = s.status := rfl
@[simp] theorem State.sendPort_sp (p : Fin 8) (v : Word) : (s.sendPort p v).sp = s.sp := rfl
@[simp] theorem State.sendPort_cyc (p : Fin 8) (v : Word) : (s.sendPort p v).cyc = s.cyc := rfl
@[simp] theorem State.sendPort_em (p : Fin 8) (v : Word) : (s.sendPort p v).em = s.em := rfl
@[simp] theorem State.sendPort_mem (p : Fin 8) (v : Word) : (s.sendPort p v).mem = s.mem := rfl
@[simp] theorem State.sendPort_stall (p : Fin 8) (v : Word) : (s.sendPort p v).stall = s.stall := rfl
@[simp] theorem State.sendPort_outputs (p : Fin 8) (v : Word) : (s.sendPort p v).outputs = s.outputs ++ [.portWrite p v] := rfl
@[simp] theorem State.sendPort_portWrites (p : Fin 8) (v : Word) : (s.sendPort p v).portWrites = s.portWrites ++ [(p, v)] := by
  simp [State.portWrites, OutputEvent.asPortWrite]
@[simp] theorem State.sendPort_console (p : Fin 8) (v : Word) : (s.sendPort p v).console = s.console := by
  simp [State.console, OutputEvent.asConsole]
@[simp] theorem State.sendPort_inputs (p : Fin 8) (v : Word) : (s.sendPort p v).inputs = s.inputs := rfl
@[simp] theorem State.sendPort_now (p : Fin 8) (v : Word) : (s.sendPort p v).now = s.now := rfl

/-! ## advance, elapse and resume -/

@[simp] theorem State.advance_x : s.advance.x = s.x := rfl
@[simp] theorem State.advance_y : s.advance.y = s.y := rfl
@[simp] theorem State.advance_pc : s.advance.pc = s.pc + 3 := rfl
@[simp] theorem State.advance_status : s.advance.status = s.status := rfl
@[simp] theorem State.advance_sp : s.advance.sp = s.sp := rfl
@[simp] theorem State.advance_cyc : s.advance.cyc = s.cyc := rfl
@[simp] theorem State.advance_em : s.advance.em = s.em := rfl
@[simp] theorem State.advance_mem : s.advance.mem = s.mem := rfl
@[simp] theorem State.advance_stall : s.advance.stall = s.stall := rfl
@[simp] theorem State.advance_outputs : s.advance.outputs = s.outputs := rfl
@[simp] theorem State.advance_portWrites : s.advance.portWrites = s.portWrites := rfl
@[simp] theorem State.advance_console : s.advance.console = s.console := rfl
@[simp] theorem State.advance_inputs : s.advance.inputs = s.inputs := rfl
@[simp] theorem State.advance_now : s.advance.now = s.now := rfl
@[simp] theorem State.elapse_x (n : Nat) : (s.elapse n).x = s.x := rfl
@[simp] theorem State.elapse_y (n : Nat) : (s.elapse n).y = s.y := rfl
@[simp] theorem State.elapse_pc (n : Nat) : (s.elapse n).pc = s.pc := rfl
@[simp] theorem State.elapse_status (n : Nat) : (s.elapse n).status = s.status := rfl
@[simp] theorem State.elapse_sp (n : Nat) : (s.elapse n).sp = s.sp := rfl
@[simp] theorem State.elapse_cyc (n : Nat) : (s.elapse n).cyc = s.cyc + BitVec.ofNat 16 n := rfl
@[simp] theorem State.elapse_em (n : Nat) : (s.elapse n).em = s.em := rfl
@[simp] theorem State.elapse_mem (n : Nat) : (s.elapse n).mem = s.mem := rfl
@[simp] theorem State.elapse_stall (n : Nat) : (s.elapse n).stall = s.stall := rfl
@[simp] theorem State.elapse_outputs (n : Nat) : (s.elapse n).outputs = s.outputs := rfl
@[simp] theorem State.elapse_portWrites (n : Nat) : (s.elapse n).portWrites = s.portWrites := rfl
@[simp] theorem State.elapse_console (n : Nat) : (s.elapse n).console = s.console := rfl
@[simp] theorem State.elapse_inputs (n : Nat) : (s.elapse n).inputs = inputsAt (s.now + 1) := rfl
@[simp] theorem State.elapse_now (n : Nat) : (s.elapse n).now = s.now + 1 := rfl
@[simp] theorem State.resume_x : s.resume.x = s.x := rfl
@[simp] theorem State.resume_y : s.resume.y = s.y := rfl
@[simp] theorem State.resume_pc : s.resume.pc = s.pc + 3 := rfl
@[simp] theorem State.resume_status : s.resume.status = s.status := rfl
@[simp] theorem State.resume_sp : s.resume.sp = s.sp := rfl
@[simp] theorem State.resume_cyc : s.resume.cyc = s.cyc := rfl
@[simp] theorem State.resume_em : s.resume.em = s.em := rfl
@[simp] theorem State.resume_mem : s.resume.mem = s.mem := rfl
@[simp] theorem State.resume_stall : s.resume.stall = .running := rfl
@[simp] theorem State.resume_outputs : s.resume.outputs = s.outputs := rfl
@[simp] theorem State.resume_portWrites : s.resume.portWrites = s.portWrites := rfl
@[simp] theorem State.resume_console : s.resume.console = s.console := rfl
@[simp] theorem State.resume_inputs : s.resume.inputs = s.inputs := rfl
@[simp] theorem State.resume_now : s.resume.now = s.now := rfl

end Sys2Proof.Machine
end

