-- ==== Sys2Proof/Laws/Ops.lean ====
section
/-! SUPPORT. One lemma per shared operation that says all it can do. -/

namespace Sys2Proof.Machine

variable {s t : State}

/-! ## Memory -/

/-- No address is memory-mapped I/O: `LEGACY_MMIO` is empty. -/
@[simp] theorem State.isMmio_false (s : State) (a : Word) : s.isMmio a = false := by
  simp [State.isMmio, legacyMmio]

/-- A data read is a read of memory. -/
@[simp] theorem State.memRead_eq (s : State) (a : Word) : s.memRead a = s.mem.read a.toNat := by
  simp [State.memRead]

/-- A data write is a write of memory. -/
@[simp] theorem State.memWrite_eq (s : State) (a v : Word) :
    s.memWrite a v = s.setMem (s.mem.write a.toNat v) := by
  simp [State.memWrite]

/-- A word of the machine has an address below 65536. -/
theorem toNat_lt_size (a : Word) : a.toNat < 65536 := a.isLt

/-! ## Outcomes -/

/-- An instruction that completes answers the advanced state. -/
@[simp] theorem State.done_next : s.done = .next t ↔ t = s.advance := by
  simp [State.done, eq_comm]

/-- A jump answers the state with the chosen pc. -/
@[simp] theorem State.jumpIf_next {taken : Bool} {target : Word} :
    s.jumpIf taken target = .next t ↔ t = s.setPc (if taken then target else s.pc + 3) := by
  simp [State.jumpIf, State.nextPc, eq_comm]

/-- A store answers a state only outside ROM, and then with the word stored. -/
@[simp] theorem State.storeDone_next {a v : Word} :
    s.storeDone a v = .next t ↔ s.inRom a = false ∧ t = (s.setMem (s.mem.write a.toNat v)).advance := by
  unfold State.storeDone
  cases s.inRom a <;> simp [State.done, eq_comm]

/-- A legacy instruction answers a state only in legacy mode. -/
@[simp] theorem State.legacyOnly_next {k : Result} : s.legacyOnly k = .next t ↔ s.em = 0 ∧ k = .next t := by
  unfold State.legacyOnly
  split <;> simp_all

/-- A port instruction answers a state only in extension mode. -/
@[simp] theorem State.extensionOnly_next {k : Result} : s.extensionOnly k = .next t ↔ s.em = 1 ∧ k = .next t := by
  unfold State.extensionOnly
  split <;> simp_all

/-- In legacy mode a legacy instruction goes on. -/
theorem State.legacyOnly_legacy {k : Result} (h : s.em = 0) : s.legacyOnly k = k := if_pos h

/-- Outside legacy mode a legacy instruction is refused. -/
theorem State.legacyOnly_refused {k : Result} (h : s.em ≠ 0) : s.legacyOnly k = .refused .legacyOnly := if_neg h

/-- In extension mode a port instruction goes on. -/
theorem State.extensionOnly_extension {k : Result} (h : s.em = 1) : s.extensionOnly k = k := if_pos h

/-- Outside extension mode a port instruction is refused. -/
theorem State.extensionOnly_refused {k : Result} (h : s.em ≠ 1) : s.extensionOnly k = .refused .extensionOnly :=
  if_neg h

/-- The ROM range is the first 4096 words in both modes. -/
theorem State.inRom_eq (s : State) (a : Word) : s.inRom a = decide (a.toNat < 0x1000) := by
  simp [State.inRom, State.romWords, romWordsExtension, romWordsLegacy]

/-- A store outside ROM is made. -/
theorem State.storeDone_outside {a v : Word} (h : s.inRom a = false) :
    s.storeDone a v = .next (s.setMem (s.mem.write a.toNat v)).advance := by
  simp [h]

/-- A store into ROM is refused. -/
theorem State.storeDone_inside {a v : Word} (h : s.inRom a = true) : s.storeDone a v = .refused .romStore := by
  simp [State.storeDone, h]

/-- The active register's write answers a state only in legacy mode. -/
@[simp] theorem State.toActive_next {v : Word} :
    s.toActive v = .next t ↔ s.em = 0 ∧ t = (s.setActive v).advance := by
  simp [State.toActive]

/-- The legacy write of STATUS answers a state only in legacy mode. -/
@[simp] theorem State.toStatus_next {v : Byte} :
    s.toStatus v = .next t ↔ s.em = 0 ∧ t = (s.setStatus v).advance := by
  simp [State.toStatus]

/-- A register check lets pass what is in the set. -/
@[simp] theorem requireReg_next {b : Bool} {k : Result} : requireReg b k = .next t ↔ b = true ∧ k = .next t := by
  unfold requireReg
  cases b <;> simp

/-- A source operand goes on with an immediate, or with a register of the set. -/
theorem State.withSource_next {allowed : Reg → Bool} {src : Src} {k : Word → Result} :
    s.withSource allowed src k = .next t ↔
      (∃ v, src = .imm v ∧ k v = .next t) ∨ (∃ r, src = .reg r ∧ allowed r = true ∧ k (s.readReg r) = .next t) := by
  cases src <;> simp [State.withSource]

/-- A memory operand goes on with its address, an indirect one read through memory. -/
@[simp] theorem State.withAddress_eq (m : MemOp) (k : Word → Result) :
    s.withAddress m k = k (match m with | .direct w => w | .indirect w => s.mem.read w.toNat) := by
  cases m <;> simp [State.withAddress, indirectMode]

/-- A port operand goes on with a port number of 0 to 7. -/
theorem withPort_next {p : Word} {k : Fin 8 → Result} :
    withPort p k = .next t ↔ ∃ h : p.toNat < 8, k ⟨p.toNat, h⟩ = .next t := by
  unfold withPort
  split <;> simp_all

/-- The operands of an ALU instruction. -/
theorem State.withAlu_next {src : Src} {dst : Reg} {k : Word → Word → Result} :
    s.withAlu src dst k = .next t ↔
      isGeneral dst = true ∧
        ((∃ v, src = .imm v ∧ k (s.readReg dst) v = .next t) ∨
          (∃ r, src = .reg r ∧ isMoiSource r = true ∧ k (s.readReg dst) (s.readReg r) = .next t)) := by
  cases src <;> simp [State.withAlu, State.withSource, and_left_comm]

/-- A write of the active register keeps everything but X and Y. -/
theorem State.setActive_cases (s : State) (v : Word) :
    (s.yActive = true ∧ s.setActive v = s.setY v) ∨ (s.yActive = false ∧ s.setActive v = s.setX v) := by
  unfold State.setActive
  cases s.yActive <;> simp

/-! ## What a write of a register keeps -/

@[simp] theorem State.setActive_pc (s : State) (v : Word) : (s.setActive v).pc = s.pc := by
  unfold State.setActive; split <;> rfl
@[simp] theorem State.setActive_status (s : State) (v : Word) : (s.setActive v).status = s.status := by
  unfold State.setActive; split <;> rfl
@[simp] theorem State.setActive_sp (s : State) (v : Word) : (s.setActive v).sp = s.sp := by
  unfold State.setActive; split <;> rfl
@[simp] theorem State.setActive_cyc (s : State) (v : Word) : (s.setActive v).cyc = s.cyc := by
  unfold State.setActive; split <;> rfl
@[simp] theorem State.setActive_em (s : State) (v : Word) : (s.setActive v).em = s.em := by
  unfold State.setActive; split <;> rfl
@[simp] theorem State.setActive_mem (s : State) (v : Word) : (s.setActive v).mem = s.mem := by
  unfold State.setActive; split <;> rfl
@[simp] theorem State.setActive_stall (s : State) (v : Word) : (s.setActive v).stall = s.stall := by
  unfold State.setActive; split <;> rfl
@[simp] theorem State.setActive_outputs (s : State) (v : Word) : (s.setActive v).outputs = s.outputs := by
  unfold State.setActive; split <;> rfl
@[simp] theorem State.setActive_portWrites (s : State) (v : Word) : (s.setActive v).portWrites = s.portWrites := by
  unfold State.setActive; split <;> rfl
@[simp] theorem State.setActive_console (s : State) (v : Word) : (s.setActive v).console = s.console := by
  unfold State.setActive; split <;> rfl
@[simp] theorem State.setActive_inputs (s : State) (v : Word) : (s.setActive v).inputs = s.inputs := by
  unfold State.setActive; split <;> rfl
@[simp] theorem State.setActive_now (s : State) (v : Word) : (s.setActive v).now = s.now := by
  unfold State.setActive; split <;> rfl
@[simp] theorem State.setActive_x (s : State) (v : Word) :
    (s.setActive v).x = if s.yActive then s.x else v := by
  unfold State.setActive; split <;> rfl
@[simp] theorem State.setActive_y (s : State) (v : Word) :
    (s.setActive v).y = if s.yActive then v else s.y := by
  unfold State.setActive; split <;> rfl
@[simp] theorem State.writeReg_pc (s : State) (r : Reg) (v : Word) : (s.writeReg r v).pc = s.pc := by
  cases r <;> rfl
@[simp] theorem State.writeReg_cyc (s : State) (r : Reg) (v : Word) : (s.writeReg r v).cyc = s.cyc := by
  cases r <;> rfl
@[simp] theorem State.writeReg_mem (s : State) (r : Reg) (v : Word) : (s.writeReg r v).mem = s.mem := by
  cases r <;> rfl
@[simp] theorem State.writeReg_stall (s : State) (r : Reg) (v : Word) : (s.writeReg r v).stall = s.stall := by
  cases r <;> rfl
@[simp] theorem State.writeReg_outputs (s : State) (r : Reg) (v : Word) : (s.writeReg r v).outputs = s.outputs := by
  cases r <;> rfl
@[simp] theorem State.writeReg_portWrites (s : State) (r : Reg) (v : Word) : (s.writeReg r v).portWrites = s.portWrites := by
  cases r <;> rfl
@[simp] theorem State.writeReg_console (s : State) (r : Reg) (v : Word) : (s.writeReg r v).console = s.console := by
  cases r <;> rfl
@[simp] theorem State.writeReg_inputs (s : State) (r : Reg) (v : Word) : (s.writeReg r v).inputs = s.inputs := by
  cases r <;> rfl
@[simp] theorem State.writeReg_now (s : State) (r : Reg) (v : Word) : (s.writeReg r v).now = s.now := by
  cases r <;> rfl

/-- A write of a register by name is one of the updates, or nothing. -/
theorem State.writeReg_cases (s : State) (r : Reg) (v : Word) :
    (r = .x ∧ s.writeReg r v = s.setX v) ∨ (r = .y ∧ s.writeReg r v = s.setY v) ∨
      (r = .status ∧ s.writeReg r v = s.setStatus (lowByte v)) ∨ (r = .sp ∧ s.writeReg r v = s.setSp v) ∨
      (r = .em ∧ s.writeReg r v = s.setEm v) ∨ ((r = .pc ∨ r = .cyc) ∧ s.writeReg r v = s) := by
  cases r <;> simp [State.writeReg]

end Sys2Proof.Machine
end

