-- ==== Sys2Proof/Laws/PerInstr.lean ====
section
/-! SUPPORT. Families of statements made instruction by instruction. -/

namespace Sys2Proof.Laws

/-- A bit of a word put together of two bytes. -/
theorem getLsbD_wordOfBytes (hi lo : Byte) (i : Nat) :
    (wordOfBytes hi lo).getLsbD i = if i < 8 then lo.getLsbD i else hi.getLsbD (i - 8) :=
  (BitVec.getLsbD_append (x := hi) (y := lo) (i := i)).trans (by simp)

/-- The high byte of a word put together of two bytes. -/
@[simp] theorem highByte_wordOfBytes (hi lo : Byte) : highByte (wordOfBytes hi lo) = hi := by
  apply BitVec.eq_of_getLsbD_eq
  intro i h
  simp [highByte, getLsbD_wordOfBytes, h]

/-- The low byte of a word put together of two bytes. -/
@[simp] theorem lowByte_wordOfBytes (hi lo : Byte) : lowByte (wordOfBytes hi lo) = lo := by
  apply BitVec.eq_of_getLsbD_eq
  intro i h
  simp [lowByte, getLsbD_wordOfBytes, h]

/-- Word 0 of an instruction holds its opcode id in bits 15:8 and its control byte in bits 7:0 (R101). -/
def OpcodeIdentified.Statement (i : Instr) : Prop :=
  fieldId (word0With .fields i) = opcodeId i ∧ fieldCtl (word0With .fields i) = controlOf i

/-- R101 for any instruction. -/
theorem word0_fields (i : Instr) : OpcodeIdentified.Statement i :=
  ⟨highByte_wordOfBytes _ _, lowByte_wordOfBytes _ _⟩

theorem OpcodeIdentified.nop : OpcodeIdentified.Statement (.nop) := word0_fields _
theorem OpcodeIdentified.lfm (addr : Word) : OpcodeIdentified.Statement (.lfm addr) := word0_fields _
theorem OpcodeIdentified.wtm (addr : Word) : OpcodeIdentified.Statement (.wtm addr) := word0_fields _
theorem OpcodeIdentified.sra (v : Word) : OpcodeIdentified.Statement (.sra v) := word0_fields _
theorem OpcodeIdentified.axy : OpcodeIdentified.Statement (.axy) := word0_fields _
theorem OpcodeIdentified.sxy : OpcodeIdentified.Statement (.sxy) := word0_fields _
theorem OpcodeIdentified.mxy : OpcodeIdentified.Statement (.mxy) := word0_fields _
theorem OpcodeIdentified.dxy : OpcodeIdentified.Statement (.dxy) := word0_fields _
theorem OpcodeIdentified.equ : OpcodeIdentified.Statement (.equ) := word0_fields _
theorem OpcodeIdentified.leq : OpcodeIdentified.Statement (.leq) := word0_fields _
theorem OpcodeIdentified.jpz (target : Word) : OpcodeIdentified.Statement (.jpz target) := word0_fields _
theorem OpcodeIdentified.jnz (target : Word) : OpcodeIdentified.Statement (.jnz target) := word0_fields _
theorem OpcodeIdentified.jmp (target : Word) : OpcodeIdentified.Statement (.jmp target) := word0_fields _
theorem OpcodeIdentified.clr : OpcodeIdentified.Statement (.clr) := word0_fields _
theorem OpcodeIdentified.hlt : OpcodeIdentified.Statement (.hlt) := word0_fields _
theorem OpcodeIdentified.bsl : OpcodeIdentified.Statement (.bsl) := word0_fields _
theorem OpcodeIdentified.bsr : OpcodeIdentified.Statement (.bsr) := word0_fields _
theorem OpcodeIdentified.andLegacy : OpcodeIdentified.Statement (.andLegacy) := word0_fields _
theorem OpcodeIdentified.ora : OpcodeIdentified.Statement (.ora) := word0_fields _
theorem OpcodeIdentified.xorLegacy : OpcodeIdentified.Statement (.xorLegacy) := word0_fields _
theorem OpcodeIdentified.dwr (v : Word) : OpcodeIdentified.Statement (.dwr v) := word0_fields _
theorem OpcodeIdentified.ilm : OpcodeIdentified.Statement (.ilm) := word0_fields _
theorem OpcodeIdentified.iwr : OpcodeIdentified.Statement (.iwr) := word0_fields _
theorem OpcodeIdentified.inc : OpcodeIdentified.Statement (.inc) := word0_fields _
theorem OpcodeIdentified.dec : OpcodeIdentified.Statement (.dec) := word0_fields _
theorem OpcodeIdentified.mov (src : Src) (dst : Reg) : OpcodeIdentified.Statement (.mov src dst) := word0_fields _
theorem OpcodeIdentified.str (src : Src) (dst : MemOp) : OpcodeIdentified.Statement (.str src dst) := word0_fields _
theorem OpcodeIdentified.lod (src : MemOp) (dst : Reg) : OpcodeIdentified.Statement (.lod src dst) := word0_fields _
theorem OpcodeIdentified.cmp : OpcodeIdentified.Statement (.cmp) := word0_fields _
theorem OpcodeIdentified.jeq (target : Word) : OpcodeIdentified.Statement (.jeq target) := word0_fields _
theorem OpcodeIdentified.jne (target : Word) : OpcodeIdentified.Statement (.jne target) := word0_fields _
theorem OpcodeIdentified.jlt (target : Word) : OpcodeIdentified.Statement (.jlt target) := word0_fields _
theorem OpcodeIdentified.jgt (target : Word) : OpcodeIdentified.Statement (.jgt target) := word0_fields _
theorem OpcodeIdentified.jle (target : Word) : OpcodeIdentified.Statement (.jle target) := word0_fields _
theorem OpcodeIdentified.jge (target : Word) : OpcodeIdentified.Statement (.jge target) := word0_fields _
theorem OpcodeIdentified.add (src : Src) (dst : Reg) : OpcodeIdentified.Statement (.add src dst) := word0_fields _
theorem OpcodeIdentified.sub (src : Src) (dst : Reg) : OpcodeIdentified.Statement (.sub src dst) := word0_fields _
theorem OpcodeIdentified.mul (src : Src) (dst : Reg) : OpcodeIdentified.Statement (.mul src dst) := word0_fields _
theorem OpcodeIdentified.div (src : Src) (dst : Reg) : OpcodeIdentified.Statement (.div src dst) := word0_fields _
theorem OpcodeIdentified.and (src : Src) (dst : Reg) : OpcodeIdentified.Statement (.and src dst) := word0_fields _
theorem OpcodeIdentified.or (src : Src) (dst : Reg) : OpcodeIdentified.Statement (.or src dst) := word0_fields _
theorem OpcodeIdentified.xor (src : Src) (dst : Reg) : OpcodeIdentified.Statement (.xor src dst) := word0_fields _
theorem OpcodeIdentified.shl (src : Src) (dst : Reg) : OpcodeIdentified.Statement (.shl src dst) := word0_fields _
theorem OpcodeIdentified.shr (src : Src) (dst : Reg) : OpcodeIdentified.Statement (.shr src dst) := word0_fields _
theorem OpcodeIdentified.push (src : Reg) : OpcodeIdentified.Statement (.push src) := word0_fields _
theorem OpcodeIdentified.pop (dst : Reg) : OpcodeIdentified.Statement (.pop dst) := word0_fields _
theorem OpcodeIdentified.wait (src : Src) : OpcodeIdentified.Statement (.wait src) := word0_fields _
theorem OpcodeIdentified.vblank : OpcodeIdentified.Statement (.vblank) := word0_fields _
theorem OpcodeIdentified.portIn (port : Word) (dst : Reg) : OpcodeIdentified.Statement (.portIn port dst) := word0_fields _
theorem OpcodeIdentified.portOut (src : Reg) (port : Word) : OpcodeIdentified.Statement (.portOut src port) := word0_fields _
theorem OpcodeIdentified.dbgLgc : OpcodeIdentified.Statement (.dbgLgc) := word0_fields _
theorem OpcodeIdentified.dbgMem : OpcodeIdentified.Statement (.dbgMem) := word0_fields _
theorem OpcodeIdentified.dbgInp : OpcodeIdentified.Statement (.dbgInp) := word0_fields _

end Sys2Proof.Laws
end

