-- ==== Sys2Proof/Laws/Step.lean ====
section
/-! SUPPORT. What one step can do. -/

namespace Sys2Proof.Machine

variable {s t : State}

/-- A finished step is the retired state of the instruction. -/
theorem retired_next {r : Result} : retired r = .next t ↔ ∃ u, r = .next u ∧ t = u.retire := by
  cases r <;> simp [retired, eq_comm]

/-- A step that answers a state does one of five things. -/
theorem step_cases (h : step s = .next t) :
    (s.halted = true ∧ t = s) ∨
      (s.halted = false ∧ s.stall = .running ∧ ∃ i u, s.fetched = .ok i ∧ exec i s = .next u ∧ t = u.retire) ∨
      (s.halted = false ∧ ∃ start n, s.stall = .waiting start n ∧ t = s.waitCycle start n) ∨
      (s.halted = false ∧ s.stall = .vblankWait ∧ t = s.vblankCycle) ∨
      (s.halted = false ∧ s.stall = .prompting ∧ t = s.promptCycle) := by
  unfold step at h
  split at h
  · next hh => exact .inl ⟨hh, by simpa [eq_comm] using h⟩
  · next hh =>
    have hf : s.halted = false := by simpa using hh
    split at h
    · next hs =>
      refine .inr (.inl ⟨hf, hs, ?_⟩)
      unfold State.runCycle at h
      split at h
      · next i hi =>
        obtain ⟨u, hu, rfl⟩ := retired_next.mp h
        exact ⟨i, u, hi, hu, rfl⟩
      · cases h
    · next start n hs => exact .inr (.inr (.inl ⟨hf, start, n, hs, by simpa [eq_comm] using h⟩))
    · next hs => exact .inr (.inr (.inr (.inl ⟨hf, hs, by simpa [eq_comm] using h⟩)))
    · next hs => exact .inr (.inr (.inr (.inr ⟨hf, hs, by simpa [eq_comm] using h⟩)))

/-- A decoded instruction passed the operand checks. -/
theorem checkOperands_ok {id : Byte} {i j : Instr} : checkOperands id i = .ok j ↔ i.wf = true ∧ j = i := by
  unfold checkOperands
  split
  · next h => simp [h, eq_comm]
  · next h =>
    constructor
    · intro h'
      split at h' <;> (try split at h') <;> cases h'
    · rintro ⟨h', -⟩
      exact absurd h' h

/-- Retiring an instruction changes nothing but CYC, the step count and the inputs. -/
theorem State.retire_eq (s : State) :
    ∃ n, s.retire = s.elapse n ∧ (s.stall = .running → 1 ≤ n) := by
  refine ⟨_, rfl, fun h => ?_⟩
  simp [h, State.instrCycles]

end Sys2Proof.Machine
end

