-- ==== Sys2Proof/Tests/Slice0.lean ====
section
/-! SUPPORT. The model's own tests, each on values that spec/95_test_vectors.md or a rule gives, and one witness for every
statement that has hypotheses: concrete operands and a state that meet all of them. -/

namespace Sys2Proof.Tests

open Sys2Proof Sys2Proof.Machine

/-! ## Helpers -/

/-- Right after reset, with nothing held on the ports, no VBlank signal and the user about to answer 0x0021. -/
def blank : State := { State.reset with inputs := ⟨Vector.replicate 8 0, false, some 0x0021⟩ }

/-- `blank`, the user not answering. -/
def unanswered : State := { blank with inputs := ⟨Vector.replicate 8 0, false, none⟩ }

/-- `blank` with X and Y. -/
def withXY (x y : Word) : State := { blank with x := x, y := y }

/-- `blank` with X, Y and STATUS. -/
def withFlags (x y : Word) (st : Byte) : State := { blank with x := x, y := y, status := st }

/-- `s` with one word of memory. -/
def holding (s : State) (a : Nat) (v : Word) : State := { s with mem := s.mem.write a v }

/-- `blank` with three words at pc. -/
def fetching (w0 w1 w2 : Word) : State := { blank with mem := blank.mem.placeInstr 0 w0 w1 w2 }

/-- What a next state answers to a question; `none` for a refusal. -/
def ask {α : Type} (r : Result) (f : State → α) : Option α :=
  match r with
  | .next t => some (f t)
  | _ => none

/-- The refusal of an outcome. -/
def refusal : Result → Option Refusal
  | .refused r => some r
  | _ => none

/-- The words are the instruction's canonical ones, read and written. -/
def Spells (w0 w1 w2 : Word) (i : Instr) : Prop := decode w0 w1 w2 = .ok i ∧ encode i = (w0, w1, w2)

/-! ## Decoding: every constructor's words, from spec/30_encoding.md R101, R102, R115 and R118 -/

theorem test_decode_v1_0_first :
    Spells 0x0000 0 0 .nop ∧ Spells 0x0100 0x2000 0 (.lfm 0x2000) ∧ Spells 0x0200 0x2001 0 (.wtm 0x2001) ∧
      Spells 0x0300 1 0 (.sra 1) ∧ Spells 0x0400 0 0 .axy ∧ Spells 0x0500 0 0 .sxy ∧ Spells 0x0600 0 0 .mxy ∧
      Spells 0x0700 0 0 .dxy ∧ Spells 0x0800 0 0 .equ ∧ Spells 0x0900 0 0 .leq ∧
      Spells 0x0A00 0x0021 0 (.jpz 0x0021) ∧ Spells 0x0B00 0x0021 0 (.jnz 0x0021) := by
  repeat' constructor

theorem test_decode_v1_0_second :
    Spells 0x0C00 9 0 (.jmp 9) ∧ Spells 0x0D00 0 0 .clr ∧ Spells 0x0E00 0 0 .hlt ∧ Spells 0x0F00 0 0 .bsl ∧
      Spells 0x1000 0 0 .bsr ∧ Spells 0x1100 0 0 .andLegacy ∧ Spells 0x1200 0 0 .ora ∧ Spells 0x1300 0 0 .xorLegacy ∧
      Spells 0x1400 0xBEEF 0 (.dwr 0xBEEF) := by
  repeat' constructor

theorem test_decode_v1_1_and_v1_2 :
    Spells 0x1500 0 0 .ilm ∧ Spells 0x1600 0 0 .iwr ∧ Spells 0x1700 0 0 .inc ∧ Spells 0x1800 0 0 .dec := by
  repeat' constructor

theorem test_decode_data_moves :
    Spells 0x1906 1 6 (.mov (.imm 1) .em) ∧ Spells 0x1902 3 0 (.mov (.reg .status) .x) ∧
      Spells 0x1A22 0 0x2000 (.str (.reg .x) (.direct 0x2000)) ∧
      Spells 0x1A26 0xABCD 0xEC78 (.str (.imm 0xABCD) (.direct 0xEC78)) ∧
      Spells 0x1A32 1 0x2100 (.str (.reg .y) (.indirect 0x2100)) ∧
      Spells 0x1A36 5 0x2100 (.str (.imm 5) (.indirect 0x2100)) ∧
      Spells 0x1B0A 0x2000 1 (.lod (.direct 0x2000) .y) ∧ Spells 0x1B0E 0x2100 0 (.lod (.indirect 0x2100) .x) := by
  repeat' constructor

theorem test_decode_compare_and_jumps :
    Spells 0x1C00 0 0 .cmp ∧ Spells 0x1D00 9 0 (.jeq 9) ∧ Spells 0x1E00 9 0 (.jne 9) ∧ Spells 0x1F00 9 0 (.jlt 9) ∧
      Spells 0x2000 9 0 (.jgt 9) ∧ Spells 0x2100 9 0 (.jle 9) ∧ Spells 0x2200 9 0 (.jge 9) := by
  repeat' constructor

theorem test_decode_alu :
    Spells 0x2306 2 0 (.add (.imm 2) .x) ∧ Spells 0x2402 0 1 (.sub (.reg .x) .y) ∧
      Spells 0x2506 0x0010 0 (.mul (.imm 0x0010) .x) ∧ Spells 0x2602 1 0 (.div (.reg .y) .x) ∧
      Spells 0x2702 0 1 (.and (.reg .x) .y) ∧ Spells 0x2806 0xF000 1 (.or (.imm 0xF000) .y) ∧
      Spells 0x2902 1 1 (.xor (.reg .y) .y) ∧ Spells 0x2A06 4 1 (.shl (.imm 4) .y) ∧
      Spells 0x2B02 1 0 (.shr (.reg .y) .x) := by
  repeat' constructor

theorem test_decode_stack_timing_ports_debug :
    Spells 0x2C01 3 0 (.push .status) ∧ Spells 0x2D01 4 0 (.pop .sp) ∧ Spells 0x2E05 0x0064 0 (.wait (.imm 0x0064)) ∧
      Spells 0x2E01 0 0 (.wait (.reg .x)) ∧ Spells 0x2F00 0 0 .vblank ∧ Spells 0x3006 7 1 (.portIn 7 .y) ∧
      Spells 0x3112 0 1 (.portOut .x 1) ∧ Spells 0xC000 0 0 .dbgLgc ∧ Spells 0xC001 0 0 .dbgMem ∧
      Spells 0xC002 0 0 .dbgInp := by
  repeat' constructor

/-- The control bytes and opcodes of 95_test_vectors.md 2.1 that are refused. -/
theorem test_decode_refuses_foreign_words :
    decode 0x1946 1 6 = .error (.controlByte 0x19) ∧ decode 0x1905 1 6 = .error (.controlByte 0x19) ∧
      decode 0x190A 1 6 = .error (.controlByte 0x19) ∧ decode 0x2312 0 0 = .error (.controlByte 0x23) ∧
      decode 0x2C11 0 0 = .error (.controlByte 0x2C) ∧ decode 0x3002 0 0 = .error (.controlByte 0x30) ∧
      decode 0x3200 0 0 = .error .noOpcode ∧ decode 0xBF00 0 0 = .error .noOpcode ∧
      decode 0xC003 0 0 = .error .noOpcode ∧ decode 0xFFFF 0 0 = .error .noOpcode := by
  repeat' constructor

/-- The control byte of a non-operand-encoded instruction is ignored (2.1). -/
theorem test_decode_ignores_control : decode 0x00FF 0x1234 0x5678 = .ok .nop := by rfl

/-- The other reading of word 0 (R104): NOP, MOV and the words it gives no meaning. -/
theorem test_decode_literal_legacy :
    decodeWith .literalLegacy 0x000C 9 0 = .ok (.jmp 9) ∧
      decodeWith .literalLegacy 0x1906 1 6 = .ok (.mov (.imm 1) .em) ∧
      decodeWith .literalLegacy 0x0C00 9 0 = .error .noOpcode := by
  repeat' constructor

/-- The host's numbering: 48 bits, the first word lowest. -/
theorem test_decode_table_word :
    decodeTableWord 48 0x000000010300 = some (.sra 1) ∧ decodeTableWord 16 0x0C00 = some (.jmp 0) ∧
      decodeTableWord 16 0x3200 = none := by
  decide

/-! ## WellFormed: an ill-formed term for each check, refused -/

theorem test_wf_sra_operand : (Instr.sra 2).wf = false ∧ decode 0x0300 2 0 = .error (.sraOperand 0x03) := by
  repeat' constructor

theorem test_wf_mov_source : (Instr.mov (.reg .pc) .x).wf = false ∧ decode 0x1902 2 0 = .error (.registerOperand 0x19) := by
  repeat' constructor

theorem test_wf_mov_dest :
    (Instr.mov (.imm 5) .status).wf = false ∧ (Instr.mov (.imm 5) .cyc).wf = false ∧
      decode 0x1906 5 3 = .error (.registerOperand 0x19) ∧ decode 0x1906 5 7 = .error (.registerOperand 0x19) := by
  repeat' constructor

theorem test_wf_str_source : (Instr.str (.reg .sp) (.direct 0)).wf = false ∧ decode 0x1A22 4 0 = .error (.registerOperand 0x1A) := by
  repeat' constructor

theorem test_wf_lod_dest : (Instr.lod (.direct 0x2000) .sp).wf = false ∧ decode 0x1B0A 0x2000 4 = .error (.registerOperand 0x1B) := by
  repeat' constructor

theorem test_wf_alu_dest : (Instr.add (.imm 1) .sp).wf = false ∧ decode 0x2306 1 4 = .error (.registerOperand 0x23) := by
  repeat' constructor

theorem test_wf_alu_source : (Instr.add (.reg .sp) .x).wf = false ∧ decode 0x2302 4 0 = .error (.registerOperand 0x23) := by
  repeat' constructor

theorem test_wf_push : (Instr.push .em).wf = false ∧ decode 0x2C01 6 0 = .error (.registerOperand 0x2C) := by
  repeat' constructor

theorem test_wf_pop : (Instr.pop .cyc).wf = false ∧ decode 0x2D01 5 0 = .error (.registerOperand 0x2D) := by
  repeat' constructor

theorem test_wf_wait : (Instr.wait (.reg .sp)).wf = false ∧ decode 0x2E01 4 0 = .error (.registerOperand 0x2E) := by
  repeat' constructor

theorem test_wf_in_port : (Instr.portIn 8 .x).wf = false ∧ decode 0x3006 8 0 = .error (.portNumber 0x30) := by
  repeat' constructor

theorem test_wf_in_dest : (Instr.portIn 0 .status).wf = false ∧ decode 0x3006 0 3 = .error (.registerOperand 0x30) := by
  repeat' constructor

theorem test_wf_out_source : (Instr.portOut .status 1).wf = false ∧ decode 0x3112 3 1 = .error (.registerOperand 0x31) := by
  repeat' constructor

theorem test_wf_out_port : (Instr.portOut .x 8).wf = false ∧ decode 0x3112 0 8 = .error (.portNumber 0x31) := by
  repeat' constructor

/-! ## V1.0 to V1.2 (95_test_vectors.md 2.2 to 2.6) -/

theorem test_nop_advances : ask (exec .nop { blank with pc := 0xFFFE }) (·.pc) = some 0x0001 := by decide
theorem test_lfm : ask (exec (.lfm 0x2000) (holding blank 0x2000 0x0042)) (·.x) = some 0x0042 := by decide
theorem test_lfm_extension : refusal (exec (.lfm 0x2000) { blank with em := 1 }) = some .legacyOnly := by decide
theorem test_wtm : ask (exec (.wtm 0x2001) (withXY 0x0099 0)) (·.mem.cells) = some [(0x2001, 0x0099)] := by decide
theorem test_wtm_rom : refusal (exec (.wtm 0x0800) blank) = some .romStore := by decide
theorem test_sra_one : ask (exec (.sra 1) blank) (·.status) = some 0x10 := by decide
theorem test_sra_zero : ask (exec (.sra 0) (withFlags 0 0 0xFF)) (·.status) = some 0xEF := by decide
theorem test_axy_wraps : ask (exec .axy (withXY 0xFFFF 0x0001)) (fun t => (t.x, t.status)) = some (0x0000, 0x00) := by decide
theorem test_axy_into_y :
    ask (exec .axy (withFlags 0x0007 0x0003 0x10)) (fun t => (t.x, t.y)) = some (0x0007, 0x000A) := by decide
theorem test_sxy : ask (exec .sxy (withXY 0x0003 0x000A)) (·.x) = some 0x0007 := by decide
theorem test_sxy_wraps : ask (exec .sxy (withXY 0x0007 0x0003)) (·.x) = some 0xFFFC := by decide
theorem test_mxy_wraps : ask (exec .mxy (withXY 0x012C 0x012C)) (·.x) = some 0x5F90 := by decide
theorem test_dxy_unsigned : ask (exec .dxy (withXY 0xFFFF 0x0002)) (fun t => (t.x, t.status)) = some (0x7FFF, 0x00) := by decide
theorem test_dxy_zero : ask (exec .dxy (withXY 0x0005 0x0000)) (fun t => (t.x, t.status)) = some (0x0000, 0x20) := by decide
theorem test_equ_equal : ask (exec .equ (withFlags 0x000A 0x000A 0x0E)) (·.status) = some 0x0F := by decide
theorem test_equ_unequal : ask (exec .equ (withFlags 0x000A 0x000B 0x0F)) (·.status) = some 0x0E := by decide
theorem test_leq_less : ask (exec .leq (withXY 0x0003 0x000A)) (·.status) = some 0x0B := by decide
theorem test_leq_unsigned : ask (exec .leq (withXY 0xFFFF 0x0001)) (·.status) = some 0x0C := by decide
theorem test_jpz :
    ask (exec (.jpz 0x0100) (withFlags 0 0 0x0A)) (·.pc) = some 0x0100 ∧
      ask (exec (.jpz 0x0100) (withFlags 0 0 0x01)) (·.pc) = some 0x0003 := by decide
theorem test_jnz :
    ask (exec (.jnz 0x0100) (withFlags 0 0 0x0A)) (·.pc) = some 0x0003 ∧
      ask (exec (.jnz 0x0100) (withFlags 0 0 0x01)) (·.pc) = some 0x0100 := by decide
theorem test_jmp : ask (exec (.jmp 9) { blank with em := 1 }) (·.pc) = some 9 := by decide
theorem test_clr : ask (exec .clr (withFlags 0 0 0xBF)) (·.status) = some 0x00 := by decide
theorem test_clr_extension : refusal (exec .clr { blank with em := 1 }) = some .legacyOnly := by decide
theorem test_hlt : ask (exec .hlt (withFlags 0 0 0x20)) (fun t => (t.status, t.pc)) = some (0x60, 0x0003) := by decide
theorem test_bsl : ask (exec .bsl (withXY 0x8001 0)) (·.x) = some 0x0002 := by decide
theorem test_bsr_logical : ask (exec .bsr (withXY 0x8001 0)) (·.x) = some 0x4000 := by decide
theorem test_and_legacy : ask (exec .andLegacy (withXY 0x0FF0 0x00FF)) (·.x) = some 0x00F0 := by decide
theorem test_ora : ask (exec .ora (withXY 0x0FF0 0x00FF)) (·.x) = some 0x0FFF := by decide
theorem test_xor_legacy : ask (exec .xorLegacy (withXY 0x0FF0 0x00FF)) (·.x) = some 0x0F0F := by decide
theorem test_dwr_into_y : ask (exec (.dwr 0xBEEF) (withFlags 1 2 0x10)) (fun t => (t.x, t.y)) = some (1, 0xBEEF) := by decide
theorem test_ilm : ask (exec .ilm (holding (withXY 0x2000 0x3000) 0x2000 0x0042)) (·.x) = some 0x0042 := by decide
theorem test_iwr : ask (exec .iwr (withXY 0x00AA 0xFFFF)) (·.mem.cells) = some [(0xFFFF, 0x00AA)] := by decide
theorem test_iwr_from_y : ask (exec .iwr (withFlags 0x3000 0x0001 0x10)) (·.mem.cells) = some [(0x3000, 0x0001)] := by decide
theorem test_inc_wraps : ask (exec .inc (withXY 0xFFFF 0)) (·.x) = some 0x0000 := by decide
theorem test_dec_wraps : ask (exec .dec (withXY 0x0000 0)) (·.x) = some 0xFFFF := by decide

/-! ## V1.4 (2.7) -/

theorem test_mov_status : ask (exec (.mov (.reg .status) .x) (withFlags 0 0 0x21)) (·.x) = some 0x0021 := by decide
theorem test_mov_em_two : refusal (exec (.mov (.imm 2) .em) blank) = some .emValue := by decide
theorem test_str_indirect :
    ask (exec (.str (.reg .y) (.indirect 0x2100)) (holding (withXY 0 5) 0x2100 0x2200)) (·.mem.cells) =
      some [(0x2100, 0x2200), (0x2200, 0x0005)] := by decide
theorem test_str_rom : refusal (exec (.str (.reg .x) (.direct 0x0010)) blank) = some .romStore := by decide
theorem test_lod_indirect :
    ask (exec (.lod (.indirect 0x2100) .x) (holding (holding blank 0x2100 0x2000) 0x2000 0x000F)) (·.x) =
      some 0x000F := by decide
theorem test_lod_rom :
    ask (exec (.lod (.direct 0) .x) (fetching 0x1B0A 0x0000 0x0000)) (·.x) = some 0x1B0A := by decide

/-! ## V1.5 (2.5, 2.6) -/

theorem test_cmp_equal : ask (exec .cmp (withFlags 5 5 0xFE)) (·.status) = some 0xF1 := by decide
theorem test_cmp_unsigned : ask (exec .cmp (withXY 0x8000 0x7FFF)) (·.status) = some 0x0C := by decide
theorem test_jumps_after_less :
    ([Instr.jeq 9, .jne 9, .jlt 9, .jgt 9, .jle 9, .jge 9].map fun i => ask (exec i (withFlags 0 0 0x0A)) (·.pc)) =
      [some 3, some 9, some 9, some 3, some 9, some 3] := by decide
theorem test_jumps_after_equal :
    ([Instr.jeq 9, .jne 9, .jlt 9, .jgt 9, .jle 9, .jge 9].map fun i => ask (exec i (withFlags 0 0 0x01)) (·.pc)) =
      [some 9, some 3, some 3, some 3, some 9, some 9] := by decide

/-! ## V1.6 (2.8) -/

theorem test_add_wraps : ask (exec (.add (.imm 2) .x) (withXY 0xFFFF 0)) (·.x) = some 0x0001 := by decide
theorem test_add_status : ask (exec (.add (.reg .status) .x) (withFlags 1 0 0x21)) (·.x) = some 0x0022 := by decide
theorem test_sub_order : ask (exec (.sub (.reg .x) .y) (withXY 0x0003 0x000A)) (·.y) = some 0x0007 := by decide
theorem test_sub_wraps : ask (exec (.sub (.imm 1) .y) blank) (·.y) = some 0xFFFF := by decide
theorem test_mul : ask (exec (.mul (.imm 0x0010) .x) (withXY 0x1234 0)) (·.x) = some 0x2340 := by decide
theorem test_div_zero : ask (exec (.div (.imm 0) .x) (withXY 0x64 0)) (fun t => (t.x, t.status)) = some (0, 0x20) := by decide
theorem test_div_sticky :
    ask (exec (.div (.imm 2) .x) (withFlags 0x8000 0 0x20)) (fun t => (t.x, t.status)) = some (0x4000, 0x20) := by decide
theorem test_and : ask (exec (.and (.imm 0x00FF) .x) (withXY 0xABCD 0)) (·.x) = some 0x00CD := by decide
theorem test_or : ask (exec (.or (.imm 0xF000) .y) (withXY 0 0x0ABC)) (·.y) = some 0xFABC := by decide
theorem test_xor : ask (exec (.xor (.reg .y) .y) (withXY 0 0x5A5A)) (·.y) = some 0x0000 := by decide
theorem test_shl_fifteen : ask (exec (.shl (.imm 15) .x) (withXY 1 0)) (·.x) = some 0x8000 := by decide
theorem test_shr_register : ask (exec (.shr (.reg .y) .x) (withXY 0x00F0 4)) (·.x) = some 0x000F := by decide
theorem test_shr_logical : ask (exec (.shr (.imm 15) .x) (withXY 0x8000 0)) (·.x) = some 0x0001 := by decide

/-! ## V1.7 (2.9) -/

theorem test_push_sp :
    ask (exec (.push .sp) { blank with sp := 0x7FFE }) (fun t => (t.sp, t.mem.cells)) =
      some (0x7FFD, [(0x7FFD, 0x7FFE)]) := by decide
theorem test_push_into_rom : refusal (exec (.push .x) { blank with sp := 0x1000 }) = some .romStore := by decide
theorem test_pop_status :
    ask (exec (.pop .status) (holding { blank with sp := 0x7FFE } 0x7FFE 0xAB2A)) (fun t => (t.status, t.sp)) =
      some (0x2A, 0x7FFF) := by decide
theorem test_pop_sp :
    ask (exec (.pop .sp) (holding { blank with sp := 0x7FFD } 0x7FFD 0x6000)) (·.sp) = some 0x6000 := by decide

/-! ## V1.8 to V1.10 and debug (2.10, 2.11, part 1) -/

theorem test_wait_zero : ask (exec (.wait (.imm 0)) blank) (fun t => (t.pc, t.stall)) = some (3, .running) := by decide
theorem test_wait_wraps :
    waitOver 0x000F 0xFFF0 0x0020 = false ∧ waitOver 0x0010 0xFFF0 0x0020 = true := by decide
theorem test_vblank_stalls : ask (exec .vblank blank) (fun t => (t.pc, t.stall)) = some (0, .vblankWait) := by decide
theorem test_vblank_ends :
    ask (step { blank with stall := .vblankWait, inputs := ⟨Vector.replicate 8 0, true, none⟩ }) (fun t => (t.pc, t.stall)) =
      some (3, .running) := by decide
theorem test_in_pad :
    ask (exec (.portIn 0 .x) { blank with em := 1, inputs := ⟨#v[0x0009, 0, 0, 0, 0, 0, 0, 0], false, none⟩ }) (·.x) =
      some 0x0009 ∧ padWord ⟨true, false, false, true, false, false, false, false⟩ 0 = 0x0009 := by decide
theorem test_in_legacy : refusal (exec (.portIn 0 .x) blank) = some .extensionOnly := by decide
theorem test_out :
    ask (exec (.portOut .x 1) { withXY 0x00FF 0 with em := 1 }) (fun t => (t.portWrites, t.x)) =
      some ([(1, 0x00FF)], 0x00FF) := by decide
theorem test_debug_logs :
    ask (exec .dbgLgc (withXY 9 0)) (·.console) = some [.logged 'I'] ∧ [8, 9, 27, 33].map charOf = ['H', 'I', '-', '5'] := by
  decide
/-- One sequence of outputs: an earlier port write stays before a later character (R340). -/
theorem test_outputs_in_order :
    ask (exec .dbgLgc { withXY 9 0 with outputs := [.portWrite 1 5] }) (·.outputs) =
      some [.portWrite 1 5, .console (.logged 'I')] := by decide
theorem test_debug_dumps : ask (exec .dbgMem blank) (fun t => (t.console.length, t.mem.cells)) = some (1, []) := by decide
theorem test_debug_input :
    ask (exec .dbgInp (withFlags 0 0 0x10)) (fun t => (t.y, t.console)) = some (0x0021, [.prompted, .answered 0x0021]) := by
  decide
theorem test_debug_input_blocks :
    ask (exec .dbgInp unanswered) (fun t => (t.pc, t.stall)) = some (0, .prompting) ∧
      ask (step { unanswered with stall := .prompting }) (fun t => (t.x, t.pc, t.stall)) = some (0, 0, .prompting) := by
  decide

/-! ## The step and the loader -/

/-- CMP at pc is fetched and run; a halted CPU runs nothing (R24, R31). -/
theorem test_step_runs :
    ask (step (fetching 0x1C00 0 0)) (fun t => (t.pc, t.status)) = some (3, 0x01) ∧
      ask (step { fetching 0x1C00 0 0 with status := 0x40 }) (fun t => (t.pc, t.status)) = some (0, 0x40) := by decide

/-- The host's word is the first instruction after reset (DWR 0x1234). -/
theorem test_with_fetch_word : ask (step (State.reset.withFetchWord 48 0x12341400)) (·.x) = some 0x1234 := by decide

/-- The legacy image of 95_test_vectors.md 2.13, and its padding. -/
theorem test_load_legacy :
    parseImage (legacyMagic ++ [0x0E, 0, 0, 0, 0, 0, 0, 0, 0x0E, 0]) =
        .ok ⟨0, generatedPayload [0x0E00, 0, 0], 0x1000⟩ ∧
      wordsOfBytes [0x0E, 0x00, 0x00] = [0x0E00, 0x0000] := by
  repeat' constructor

/-! ## Witnesses: encoding -/

theorem witness_DecodingReadsBackEveryEncoding :
    (Instr.add (.imm 0xFFFF) .y).wf = true ∧ (Instr.portOut .y 7).wf = true ∧ (Instr.sra 1).wf = true := by decide

theorem witness_AcceptedWordsAreTheirInstruction :
    decodeWith .fields 0x1906 1 6 = .ok (.mov (.imm 1) .em) ∧ isNonOeId (fieldId 0x1906) = false ∧
      fieldCnt (fieldCtl 0x1906) = 2 ∧ fieldId 0x1906 ≠ 0xC0 := by
  refine ⟨rfl, ?_⟩; decide

theorem witness_NonOperandEncodedIgnoreControl :
    isNonOeId 0x00 = true ∧ isNonOeId 0x18 = true ∧ isNonOeId 0x1C = true ∧ isNonOeId 0x2F = true := by decide

/-! ## Witnesses: the step -/

theorem witness_StepRunsDecodedInstruction :
    ∃ i, (fetching 0x1906 1 6).status.getLsbD 6 = false ∧ (fetching 0x1906 1 6).stall = .running ∧
      decode ((fetching 0x1906 1 6).memRead 0) ((fetching 0x1906 1 6).memRead (0 + 1))
        ((fetching 0x1906 1 6).memRead (0 + 2)) = .ok i ∧ i.wf = true ∧ (fetching 0x1906 1 6).pc = 0 :=
  ⟨.mov (.imm 1) .em, rfl, rfl, rfl, rfl, rfl⟩

/-- One state for each clause: no opcode, SRA 2, port 8, a control byte, a register operand. -/
theorem witness_FailedDecodingIsRefusedInOrder :
    (fetching 0x3200 0 0).status.getLsbD 6 = false ∧ (fetching 0x3200 0 0).stall = .running ∧
      (fetching 0x3200 0 0).fetched = .error .noOpcode ∧ (fetching 0x0300 2 0).fetched = .error (.sraOperand 0x03) ∧
      (fetching 0x3006 8 0).fetched = .error (.portNumber 0x30) ∧
      (fetching 0x3002 0 0).fetched = .error (.controlByte 0x30) ∧
      (fetching 0x3112 3 0).fetched = .error (.registerOperand 0x31) := by
  repeat' constructor

theorem witness_HaltedCpuStaysAsItIs : (withFlags 0 0 0x40).status.getLsbD 6 = true := by decide

/-! ## Witnesses: invariants and whole-machine rules -/

/-- A running CPU, one in WAIT, one in VBLANK and one in DBG_INP meet the invariant and step. -/
theorem witness_StepKeepsTheInvariant :
    ((fetching 0x1906 1 6).inv = true ∧ ∃ t, step (fetching 0x1906 1 6) = .next t) ∧
      ({ blank with stall := .waiting 0 1 }.inv = true ∧ ∃ t, step { blank with stall := .waiting 0 1 } = .next t) ∧
      ({ blank with stall := .vblankWait }.inv = true ∧ ∃ t, step { blank with stall := .vblankWait } = .next t) ∧
      ({ blank with stall := .prompting }.inv = true ∧ ∃ t, step { blank with stall := .prompting } = .next t) :=
  ⟨⟨by decide, _, rfl⟩, ⟨by decide, _, rfl⟩, ⟨by decide, _, rfl⟩, by decide, _, rfl⟩

theorem witness_RunsNeverChangeRom : InRom 0x0FFF ∧ InRom 0 ∧ ∃ t, Reaches 1 (fetching 0x0200 0x1000 0) t :=
  ⟨by decide, by decide, _, rfl⟩

theorem witness_NoInstructionWritesCyc : ∃ t, exec (.mov (.reg .cyc) .x) blank = .next t := ⟨_, rfl⟩

theorem witness_OnlyTabledInstructionsWriteStatus :
    (∃ t, exec .cmp blank = .next t) ∧ mayWriteBit .cmp 3 = true ∧ mayWriteBit .cmp 4 = false :=
  ⟨⟨_, rfl⟩, by decide⟩

theorem witness_DivisionFlagIsSticky :
    (∃ t, exec (.div (.imm 2) .x) (withFlags 1 2 0x20) = .next t) ∧ (withFlags 1 2 0x20).status.getLsbD 5 = true :=
  ⟨⟨_, rfl⟩, by decide⟩

theorem witness_OnlyMovChangesTheMode :
    (∃ t, exec (.mov (.imm 1) .em) blank = .next t) ∧ ∃ t, exec .nop blank = .next t := ⟨⟨_, rfl⟩, _, rfl⟩

/-- Each clause; the jumps are one taken and one not, at the top of the address space. -/
theorem witness_StraightLineAdvancesByThree :
    ((∃ t, exec (.pop .status) blank = .next t) ∧ setsPc (.pop .status) = false) ∧
      ((∃ t, exec (.jmp 7) blank = .next t) ∧ jumpOf blank (.jmp 7) = some (7, true)) ∧
      ((∃ t, exec (.jeq 7) { blank with pc := 0xFFFE } = .next t) ∧
        jumpOf { blank with pc := 0xFFFE } (.jeq 7) = some (7, false)) ∧
      (∃ t, exec .dbgInp blank = .next t) ∧ ∃ t, exec .dbgInp unanswered = .next t :=
  ⟨⟨⟨_, rfl⟩, by decide⟩, ⟨⟨_, rfl⟩, by decide⟩, ⟨⟨_, rfl⟩, by decide⟩, ⟨_, rfl⟩, _, rfl⟩

/-- Each clause of the register frame, on CMP and on an AXY whose active register is Y. -/
theorem witness_RegistersChangeOnlyWhereWritten :
    (∃ t, exec .cmp blank = .next t) ∧ mayWriteX blank .cmp = false ∧ mayWriteY blank .cmp = false ∧
      mayWriteSp .cmp = false ∧ (∃ t, exec .axy (withFlags 1 2 0x10) = .next t) ∧
      mayWriteX (withFlags 1 2 0x10) .axy = false :=
  ⟨⟨_, rfl⟩, by decide, by decide, by decide, ⟨_, rfl⟩, by decide⟩

theorem witness_MemoryChangesOnlyWhereStored :
    (∃ t, exec (.wtm 0x1000) blank = .next t) ∧ storeAddress blank (.wtm 0x1000) ≠ some 0x1001 :=
  ⟨⟨_, rfl⟩, by decide⟩

theorem witness_InstructionsOutsideTheirModeAreRefused :
    availabilityOf (opcodeId (.lfm 0)) = .legacy ∧ { blank with em := 1 }.em ≠ 0 ∧
      availabilityOf (opcodeId (.portIn 0 .x)) = .extension ∧ blank.em ≠ 1 := by decide

/-! ## Witnesses: base instructions, in legacy mode -/

theorem witness_LfmAndDwrWriteTheActiveRegister :
    (withFlags 1 2 0x10).em = 0 ∧ { blank with em := 1 }.em = 1 := by decide

theorem witness_LegacyStoresWriteOneWord :
    (withXY 1 0x1000).em = 0 ∧ ¬ InRom 0x1000 ∧ InRom 0x0FFF ∧ ¬ InRom (withXY 1 0x1000).inactive ∧
      (withXY 1 0x0FFF).em = 0 ∧ InRom (withXY 1 0x0FFF).inactive := by decide

theorem witness_SraSelectsTheActiveRegister :
    blank.em = 0 ∧ (0 : Word).toNat ≤ 1 ∧ (1 : Word).toNat ≤ 1 ∧ 1 < (2 : Word).toNat := by decide

theorem witness_LegacyArithmeticWraps : (withXY 0xFFFF 1).em = 0 := by decide

theorem witness_DxyDividesAndFlagsZero :
    (withXY 5 1).em = 0 ∧ (withXY 5 1).y ≠ 0 ∧ (withXY 5 0).em = 0 ∧ (withXY 5 0).y = 0 := by decide

theorem witness_EquWritesBitZero :
    (withXY 3 3).em = 0 ∧ { blank with em := 1 }.em = 1 := by decide

theorem witness_LeqAndCmpCompareUnsigned : (withXY 0xFFFF 1).em = 0 := by decide

theorem witness_JpzAndJnzTestBitZero : (withFlags 0 0 1).em = 0 := by decide

theorem witness_ClrClearsStatus :
    (withFlags 0 0 0xFF).em = 0 ∧ { blank with em := 1 }.em = 1 := by decide

theorem witness_BslAndBsrShiftByOne : (withXY 0x8001 0).em = 0 := by decide

theorem witness_LegacyLogicCombinesXAndY :
    (withXY 0x0FF0 0x00FF).em = 0 ∧ { blank with em := 1 }.em = 1 := by decide

theorem witness_IlmLoadsThroughTheActiveRegister :
    (withFlags 0 0 0x00).em = 0 ∧ (withFlags 0 0 0x00).status.getLsbD 4 = false ∧
      (withFlags 0 0 0x10).em = 0 ∧ (withFlags 0 0 0x10).status.getLsbD 4 = true := by decide

/-! ## Witnesses: data moves, ALU, stack -/

theorem witness_MovCopies :
    movValue blank (.imm 0xFFFF) = some 0xFFFF ∧ movValue blank (.reg .cyc) = some 0 ∧
      movValue (withFlags 0 0 0xFF) (.reg .status) = some 0x00FF := by decide

theorem witness_MovToEmTakesZeroAndOne :
    movValue blank (.imm 1) = some 1 ∧ (1 : Word).toNat ≤ 1 ∧ movValue blank (.imm 2) = some 2 ∧ 1 < (2 : Word).toNat := by
  decide

theorem witness_StrStoresOneWord :
    moiValue blank (.imm 7) = some 7 ∧ ¬ InRom (memAddress blank (.direct 0x1000)) ∧
      InRom (memAddress blank (.direct 0x0FFF)) ∧
      ¬ InRom (memAddress (holding blank 0x2100 0x2200) (.indirect 0x2100)) := by decide

theorem witness_AluWritesTheResult : moiValue (withFlags 0 0 0x21) (.reg .status) = some 0x0021 ∧ Reg.y ≠ .x := by decide

theorem witness_DivDividesAndFlagsZero :
    moiValue blank (.imm 1) = some 1 ∧ (1 : Word) ≠ 0 ∧ moiValue blank (.imm 0) = some 0 := by decide

theorem witness_ShiftsBelowSixteen : moiValue blank (.imm 15) = some 15 ∧ (15 : Word).toNat ≤ 15 := by decide

theorem witness_ShiftsBySixteenOrMoreComplete :
    moiValue blank (.imm 16) = some 16 ∧ 16 ≤ (16 : Word).toNat ∧ moiValue blank (.imm 0xFFFF) = some 0xFFFF := by decide

/-- Each clause: an ALU source and destination, MOV's, STR's source, a destination outside X and Y, a stack register. -/
theorem witness_RegistersOutsideTheSetAreRefused :
    moiValue blank (.reg .sp) = none ∧ movValue blank (.reg .pc) = none ∧ Reg.sp ≠ .x ∧ Reg.sp ≠ .y ∧
      { blank with em := 1 }.em = 1 ∧ stackValue blank .em = none := by decide

theorem witness_PushStoresBelowSp :
    stackValue { blank with sp := 0x1001 } .sp = some 0x1001 ∧ ¬ InRom ({ blank with sp := 0x1001 }.sp - 1) ∧
      stackValue { blank with sp := 0x1000 } .x = some 0 ∧ InRom ({ blank with sp := 0x1000 }.sp - 1) := by decide

theorem witness_PushThenPopCopies : ¬ InRom ({ blank with sp := 0x1001 }.sp - 1) ∧ ¬ InRom (blank.sp - 1) := by decide

/-! ## Witnesses: timing, ports, debug opcodes, loading -/

theorem witness_WaitAndVblankStall :
    moiValue blank (.imm 0) = some 0 ∧ moiValue blank (.imm 1) = some 1 ∧ (1 : Word) ≠ 0 := by decide

/-- The shortest wait, and the last cycle of the longest, across the wrap of CYC. -/
theorem witness_WaitEndsWhenItsCyclesHavePassed :
    ({ blank with stall := .waiting 0 1 }.status.getLsbD 6 = false ∧
        { blank with stall := .waiting 0 1 }.stall = .waiting 0 1 ∧ (blank.cyc - 0).toNat < (1 : Word).toNat) ∧
      { blank with stall := .waiting 2 0xFFFF }.status.getLsbD 6 = false ∧
      { blank with stall := .waiting 2 0xFFFF }.stall = .waiting 2 0xFFFF ∧
      (blank.cyc - 2).toNat < (0xFFFF : Word).toNat := by decide

/-- `k = 0`, the signal raised in the present step; and the premise for `k = 1`, no signal in the present step. -/
theorem witness_VblankEndsWithTheNextSignal :
    { blank with stall := .vblankWait, inputs := ⟨Vector.replicate 8 0, true, none⟩ }.status.getLsbD 6 = false ∧
      { blank with stall := .vblankWait, inputs := ⟨Vector.replicate 8 0, true, none⟩ }.stall = .vblankWait ∧
      { blank with stall := .vblankWait, inputs := ⟨Vector.replicate 8 0, true, none⟩ }.inputs.vblank = true ∧
      { blank with stall := .vblankWait }.inputs.vblank = false := by decide

/-- The next pixel to the right, the first one of the next row, and one four places on. -/
theorem witness_PicturesBeginAtTheTopOfVram :
    pixelIndex 0 0 < pixelIndex 0 1 ∧ pixelIndex 0 99 < pixelIndex 1 0 ∧ pixelIndex 99 95 + 4 ≤ pixelIndex 99 99 ∧
      pixelIndex 99 99 = 9999 := by decide

theorem witness_PortsReadAndWrite : { blank with em := 1 }.em = 1 ∧ 7 < (8 : Word).toNat := by decide

/-- An answer at once, none, and a blocked CPU in both cases. -/
theorem witness_DebugOpcodesUseTheConsole :
    (blank.em = 0 ∧ blank.inputs.typed = some 0x0021) ∧ (unanswered.em = 0 ∧ unanswered.inputs.typed = none) ∧
      ({ blank with stall := .prompting }.status.getLsbD 6 = false ∧
        { blank with stall := .prompting }.stall = .prompting) ∧
      { unanswered with stall := .prompting }.status.getLsbD 6 = false ∧
      { unanswered with stall := .prompting }.stall = .prompting := by decide

theorem witness_DebugCharactersFollowTheTable :
    0 < 26 ∧ 25 < 26 ∧ 9 < 10 ∧ 40 ≤ (40 : Word).toNat ∧ (39 : Word).toNat < 40 ∧
      (∀ n, n < 40 → charOf (BitVec.ofNat 16 n) ≠ 'a') := by decide

/-- The largest images that fit, and the smallest that do not. -/
theorem witness_LoaderPlacesTheImage :
    (List.replicate 0x1000 (0 : Word)).length ≤ 0x1000 ∧ 0x1000 < (List.replicate 0x1001 (0 : Word)).length ∧
      (0x0FFF : Word).toNat + [(0 : Word)].length ≤ 0x1000 ∧ (1 : Byte).toNat ≤ 1 ∧
      0x1000 < (0x1000 : Word).toNat + [(0 : Word)].length ∧ [(0 : Word)].length < 65536 := by
  rw [List.length_replicate, List.length_replicate]
  decide

end Sys2Proof.Tests
end

section
/-! SUPPORT. The operands and the register updates, for the statements of spec/10_state.md: what a source operand's value
is where it has one, what a write by name does to each register, what the flag computations do to each bit. -/

namespace Sys2Proof.Machine

variable {s t : State}

/-! ## Source operands -/

/-- A register PUSH may name has the value it reads as. -/
theorem stackValue_eq (r : Reg) : stackValue s r = if isStackReg r then some (s.readReg r) else none := by
  cases r <;> rfl

/-- The operand check of STR, the ALU instructions and WAIT is the question whether the operand has a value. -/
theorem State.withSource_moi_elim (src : Src) (k : Word → Result) :
    s.withSource isMoiSource src k = (moiValue s src).elim (.refused .registerOperand) k := by
  cases src with
  | imm => rfl
  | reg r => cases r <;> rfl

/-- MOV's operand check is the question whether the operand has a value. -/
theorem State.withSource_mov_elim (src : Src) (k : Word → Result) :
    s.withSource isMovSource src k = (movValue s src).elim (.refused .registerOperand) k := by
  cases src with
  | imm => rfl
  | reg r => cases r <;> rfl

theorem State.withSource_moi {src : Src} {v : Word} (k : Word → Result) (h : moiValue s src = some v) :
    s.withSource isMoiSource src k = k v := by
  rw [State.withSource_moi_elim, h, Option.elim_some]

theorem State.withSource_moi_refused {src : Src} (k : Word → Result) (h : moiValue s src = none) :
    s.withSource isMoiSource src k = .refused .registerOperand := by
  rw [State.withSource_moi_elim, h, Option.elim_none]

theorem State.withSource_mov {src : Src} {v : Word} (k : Word → Result) (h : movValue s src = some v) :
    s.withSource isMovSource src k = k v := by
  rw [State.withSource_mov_elim, h, Option.elim_some]

theorem State.withSource_mov_refused {src : Src} (k : Word → Result) (h : movValue s src = none) :
    s.withSource isMovSource src k = .refused .registerOperand := by
  rw [State.withSource_mov_elim, h, Option.elim_none]

/-! ## Registers by name -/

/-- The general registers are X and Y. -/
theorem isGeneral_iff {r : Reg} : isGeneral r = true ↔ r = .x ∨ r = .y := by
  cases r <;> simp [isGeneral]

theorem State.writeReg_x (r : Reg) (v : Word) : (s.writeReg r v).x = if r = .x then v else s.x := by
  cases r <;> rfl
theorem State.writeReg_y (r : Reg) (v : Word) : (s.writeReg r v).y = if r = .y then v else s.y := by
  cases r <;> rfl
theorem State.writeReg_sp (r : Reg) (v : Word) : (s.writeReg r v).sp = if r = .sp then v else s.sp := by
  cases r <;> rfl
theorem State.writeReg_em (r : Reg) (v : Word) : (s.writeReg r v).em = if r = .em then v else s.em := by
  cases r <;> rfl
theorem State.writeReg_status (r : Reg) (v : Word) :
    (s.writeReg r v).status = if r = .status then lowByte v else s.status := by
  cases r <;> rfl

@[simp] theorem State.emit_yActive (e : ConsoleEvent) : (s.emit e).yActive = s.yActive := rfl
@[simp] theorem State.emit_halted (e : ConsoleEvent) : (s.emit e).halted = s.halted := rfl
@[simp] theorem State.setStall_halted (v : Stall) : (s.setStall v).halted = s.halted := rfl
@[simp] theorem State.elapse_halted (n : Nat) : (s.elapse n).halted = s.halted := rfl

/-- The low byte of a word is the word cut to eight bits. -/
theorem lowByte_eq_setWidth (w : Word) : lowByte w = w.setWidth 8 :=
  (BitVec.setWidth_eq_extractLsb' (by decide)).symm

/-! ## STATUS bits -/

/-- EQU writes bit 0 and no other. -/
theorem getLsbD_equStatus {x y : Word} {st : Byte} {j : Nat} (h : j ≠ 0) :
    (equStatus x y st).getLsbD j = st.getLsbD j := by
  simp [equStatus, getLsbD_withBit, bitEQ, h]

/-- The order of X and Y goes to bits 1 to 3. -/
theorem getLsbD_orderStatus {x y : Word} {st : Byte} {j : Nat} (h : 3 < j) :
    (orderStatus x y st).getLsbD j = st.getLsbD j := by
  have : j ≠ 1 ∧ j ≠ 2 ∧ j ≠ 3 := by omega
  simp [orderStatus, getLsbD_withBit, bitLT, bitGT, bitNE, this]

/-- LEQ writes no bit above bit 3. -/
theorem getLsbD_leqStatus {x y : Word} {st : Byte} {j : Nat} (h : 3 < j) :
    (leqStatus x y st).getLsbD j = st.getLsbD j := by
  have : j ≠ 0 := by omega
  simp [leqStatus, getLsbD_withBit, bitEQ, this, getLsbD_orderStatus h]

/-- CMP writes no bit above bit 3. -/
theorem getLsbD_cmpStatus {x y : Word} {st : Byte} {j : Nat} (h : 3 < j) :
    (cmpStatus x y st).getLsbD j = st.getLsbD j := by
  have : j ≠ 0 := by omega
  simp [cmpStatus, getLsbD_withBit, bitEQ, this, getLsbD_orderStatus h]

/-- A division writes bit 5 at most. -/
theorem getLsbD_divStatus {d : Word} {st : Byte} {j : Nat} (h : j ≠ 5) :
    (divStatus d st).getLsbD j = st.getLsbD j := by
  unfold divStatus
  split
  · simp [getLsbD_withBit, bitDZ, h]
  · rfl

/-- A division does not clear bit 5. -/
theorem divStatus_keeps_dz {d : Word} {st : Byte} (h : st.getLsbD 5 = true) :
    (divStatus d st).getLsbD 5 = true := by
  unfold divStatus
  split
  · exact getLsbD_withBit _ _ _ _ (by decide)
  · exact h

end Sys2Proof.Machine
end

section
/-! SUPPORT. What the execution of an instruction can do, said once: every instruction that gives a next state has an
`Effect`, and each frame statement is a case analysis of it. -/

namespace Sys2Proof.Machine

/-- What a straight-line instruction makes of a state before the pc moves on. Where several instructions share a form, the
tables of Sys2Proof/Safety.lean say what the instruction may write. -/
inductive Writes (s : State) : Instr → State → Prop
  | nothing : Writes s .nop s
  | active {i : Instr} {v : Word} (hx : mayWriteX s i = !s.yActive) (hy : mayWriteY s i = s.yActive) :
      Writes s i (s.setActive v)
  | dxy {q : Word} : Writes s .dxy ((s.setActive q).setStatus (divStatus s.y s.status))
  | status {i : Instr} {st : Byte} (keeps : ∀ j, mayWriteBit i j = false → st.getLsbD j = s.status.getLsbD j) :
      Writes s i (s.setStatus st)
  | store {i : Instr} {a v : Word} (address : storeAddress s i = some a) (outside : s.inRom a = false) :
      Writes s i (s.setMem (s.mem.write a.toNat v))
  | mov {src : Src} {d : Reg} {v : Word} (value : movValue s src = some v) (dest : isMovDest d = true)
      (accepted : emAccepts d v = true) : Writes s (.mov src d) (s.writeReg d v)
  | general {i : Instr} {d : Reg} {v : Word} (dest : isGeneral d = true) (hx : mayWriteX s i = decide (d = .x))
      (hy : mayWriteY s i = decide (d = .y)) : Writes s i (s.writeReg d v)
  | div {src : Src} {d : Reg} {q v : Word} (dest : isGeneral d = true) :
      Writes s (.div src d) ((s.writeReg d q).setStatus (divStatus v s.status))
  | push {r : Reg} {v : Word} (outside : s.inRom (pushedSp s.sp) = false) :
      Writes s (.push r) ((s.setSp (pushedSp s.sp)).setMem (s.mem.write (pushedSp s.sp).toNat v))
  | pop {r : Reg} {v : Word} (dest : isStackReg r = true) :
      Writes s (.pop r) ((s.setSp (poppedSp s.sp)).writeReg r v)
  | portOut {src : Reg} {port : Word} {p : Fin 8} {v : Word} : Writes s (.portOut src port) (s.sendPort p v)
  | console {i : Instr} {e : ConsoleEvent} (opcode : i = .dbgLgc ∨ i = .dbgMem) : Writes s i (s.emit e)

/-- What an instruction that gives a next state makes of a state. -/
inductive Effect (s : State) : Instr → State → Prop
  | straight {i : Instr} {u : State} (hi : setsPc i = false) (w : Writes s i u) : Effect s i u.advance
  | jump {i : Instr} {target : Word} {taken : Bool} (hi : jumpOf s i = some (target, taken)) :
      Effect s i (s.setPc (if taken then target else s.pc + 3))
  | waitNone {src : Src} : Effect s (.wait src) s.advance
  | wait {src : Src} {n : Word} (positive : n ≠ 0) : Effect s (.wait src) (s.setStall (.waiting s.cyc n))
  | vblank : Effect s .vblank (s.setStall .vblankWait)
  | answered {v : Word} (typed : s.inputs.typed = some v) :
      Effect s .dbgInp (((s.emit .prompted).emit (.answered v)).setActive v).advance
  | prompting (legacy : s.em = 0) (typed : s.inputs.typed = none) :
      Effect s .dbgInp ((s.emit .prompted).setStall .prompting)

variable {s t u : State} {i : Instr}

/-- A completed ALU instruction that writes no flag wrote a general register. -/
theorem State.alu_next {src : Src} {d : Reg} {f : Word → Word → Word} (h : s.alu src d f = .next t) :
    isGeneral d = true ∧ ∃ v, t = (s.writeReg d v).advance := by
  obtain ⟨dest, ⟨_, -, h⟩ | ⟨_, -, -, h⟩⟩ := State.withAlu_next.mp h <;>
    exact ⟨dest, _, State.done_next.mp h⟩

/-- A completed SRA wrote bit 4 of STATUS. -/
theorem execSra_next {v : Word} (h : execSra v s = .next t) :
    ∃ b, t = (s.setStatus (withBit s.status bitAR b)).advance := by
  obtain ⟨-, h⟩ := State.legacyOnly_next.mp h
  split at h
  · exact ⟨_, State.done_next.mp h⟩
  · split at h
    · exact ⟨_, State.done_next.mp h⟩
    · cases h

/-- A completed STR stored outside ROM, at the address its operand names. -/
theorem execStr_next {src : Src} {m : MemOp} (h : execStr src m s = .next t) :
    ∃ v, s.inRom (memAddress s m) = false ∧
      t = (s.setMem (s.mem.write (memAddress s m).toNat v)).advance := by
  have address : ∀ k : Word → Result, s.withAddress m k = k (memAddress s m) := by
    cases m <;> simp [memAddress]
  simp only [execStr, address] at h
  obtain ⟨_, -, h⟩ | ⟨_, -, -, h⟩ := State.withSource_next.mp h <;> exact ⟨_, State.storeDone_next.mp h⟩

/-- A completed MOV wrote its source's value to a destination of its set, EM only with a legal value. -/
theorem execMov_next {src : Src} {d : Reg} (h : execMov src d s = .next t) :
    ∃ v, movValue s src = some v ∧ isMovDest d = true ∧ emAccepts d v = true ∧ t = (s.writeReg d v).advance := by
  cases value : movValue s src with
  | none =>
    rw [execMov, State.withSource_mov_refused _ value] at h
    cases h
  | some v =>
    rw [execMov, State.withSource_mov _ value, requireReg_next] at h
    obtain ⟨dest, h⟩ := h
    split at h
    · next accepted => exact ⟨v, rfl, dest, accepted, State.done_next.mp h⟩
    · cases h

/-- A completed DIV wrote a general register and the division flag. -/
theorem execDiv_next {src : Src} {d : Reg} (h : execDiv src d s = .next t) :
    isGeneral d = true ∧ ∃ q v, t = ((s.writeReg d q).setStatus (divStatus v s.status)).advance := by
  obtain ⟨dest, ⟨_, -, h⟩ | ⟨_, -, -, h⟩⟩ := State.withAlu_next.mp h <;>
    exact ⟨dest, _, _, State.done_next.mp h⟩

/-- A WAIT that goes on completed at once or stalled the CPU. -/
theorem execWait_next {src : Src} (h : execWait src s = .next t) :
    t = s.advance ∨ ∃ n, n ≠ 0 ∧ t = s.setStall (.waiting s.cyc n) := by
  have either : ∀ n : Word, (if n = 0 then s.done else .next (s.setStall (.waiting s.cyc n))) = .next t →
      t = s.advance ∨ ∃ n, n ≠ 0 ∧ t = s.setStall (.waiting s.cyc n) := by
    intro n h
    split at h
    · exact .inl (State.done_next.mp h)
    · next positive =>
      cases h
      exact .inr ⟨n, positive, rfl⟩
  obtain ⟨_, -, h⟩ | ⟨_, -, -, h⟩ := State.withSource_next.mp h <;> exact either _ h

/-- Every instruction that gives a next state has one of the effects. -/
theorem exec_effect (h : exec i s = .next t) : Effect s i t := by
  cases i with
  | nop =>
    cases State.done_next.mp h
    exact .straight rfl .nothing
  | lfm | axy | sxy | mxy | bsl | bsr | andLegacy | ora | xorLegacy | dwr | ilm | inc | dec =>
    obtain ⟨-, rfl⟩ := State.toActive_next.mp h
    exact .straight rfl (.active rfl rfl)
  | dxy =>
    cases State.done_next.mp (State.legacyOnly_next.mp h).2
    exact .straight rfl .dxy
  | sra =>
    obtain ⟨b, rfl⟩ := execSra_next h
    refine .straight rfl (.status fun j hj => ?_)
    simp_all [mayWriteBit, getLsbD_withBit, bitAR]
  | equ =>
    obtain ⟨-, rfl⟩ := State.toStatus_next.mp h
    exact .straight rfl (.status fun j hj => getLsbD_equStatus (of_decide_eq_false hj))
  | leq =>
    obtain ⟨-, rfl⟩ := State.toStatus_next.mp h
    exact .straight rfl (.status fun j hj => getLsbD_leqStatus (Nat.lt_of_not_le (of_decide_eq_false hj)))
  | cmp =>
    cases State.done_next.mp h
    exact .straight rfl (.status fun j hj => getLsbD_cmpStatus (Nat.lt_of_not_le (of_decide_eq_false hj)))
  | clr =>
    obtain ⟨-, rfl⟩ := State.toStatus_next.mp h
    exact .straight rfl (.status fun j hj => nomatch hj)
  | hlt =>
    cases State.done_next.mp h
    refine .straight rfl (.status fun j hj => ?_)
    simp_all [mayWriteBit, getLsbD_withBit, bitHF]
  | wtm | iwr =>
    obtain ⟨outside, rfl⟩ := State.storeDone_next.mp (State.legacyOnly_next.mp h).2
    exact .straight rfl (.store rfl outside)
  | str =>
    obtain ⟨v, outside, rfl⟩ := execStr_next h
    exact .straight rfl (.store rfl outside)
  | jpz | jnz =>
    cases State.jumpIf_next.mp (State.legacyOnly_next.mp h).2
    exact .jump rfl
  | jmp | jeq | jne | jlt | jgt | jle | jge =>
    cases State.jumpIf_next.mp h
    exact .jump rfl
  | mov =>
    obtain ⟨v, value, dest, accepted, rfl⟩ := execMov_next h
    exact .straight rfl (.mov value dest accepted)
  | lod =>
    obtain ⟨dest, h⟩ := requireReg_next.mp h
    rw [State.withAddress_eq] at h
    cases State.done_next.mp h
    exact .straight rfl (.general dest rfl rfl)
  | add | sub | mul | and | or | xor =>
    obtain ⟨dest, v, rfl⟩ := State.alu_next h
    exact .straight rfl (.general dest rfl rfl)
  | shl =>
    obtain ⟨dest, v, rfl⟩ := State.alu_next (f := fun d v => shiftLeft d v s.now) h
    exact .straight rfl (.general dest rfl rfl)
  | shr =>
    obtain ⟨dest, v, rfl⟩ := State.alu_next (f := fun d v => shiftRight d v s.now) h
    exact .straight rfl (.general dest rfl rfl)
  | div =>
    obtain ⟨dest, q, v, rfl⟩ := execDiv_next h
    exact .straight rfl (.div dest)
  | push =>
    obtain ⟨-, h⟩ := requireReg_next.mp h
    obtain ⟨outside, rfl⟩ := State.storeDone_next.mp h
    exact .straight rfl (.push outside)
  | pop =>
    obtain ⟨dest, h⟩ := requireReg_next.mp h
    cases State.done_next.mp h
    exact .straight rfl (.pop dest)
  | wait =>
    obtain rfl | ⟨n, positive, rfl⟩ := execWait_next h
    · exact .waitNone
    · exact .wait positive
  | vblank =>
    cases h
    exact .vblank
  | portIn =>
    obtain ⟨_, h⟩ := withPort_next.mp (State.extensionOnly_next.mp h).2
    obtain ⟨dest, h⟩ := requireReg_next.mp h
    cases State.done_next.mp h
    exact .straight rfl (.general dest rfl rfl)
  | portOut =>
    obtain ⟨_, h⟩ := withPort_next.mp (State.extensionOnly_next.mp h).2
    cases State.done_next.mp (requireReg_next.mp h).2
    exact .straight rfl .portOut
  | dbgLgc =>
    cases State.done_next.mp (State.legacyOnly_next.mp h).2
    exact .straight rfl (.console (.inl rfl))
  | dbgMem =>
    cases State.done_next.mp (State.legacyOnly_next.mp h).2
    exact .straight rfl (.console (.inr rfl))
  | dbgInp =>
    obtain ⟨legacy, h⟩ := State.legacyOnly_next.mp h
    unfold State.promptUser at h
    split at h
    · next typed =>
      cases h
      exact .answered typed
    · next typed =>
      cases h
      exact .prompting legacy typed

end Sys2Proof.Machine
end

section
/-! SUPPORT. The frames of `Writes` and `Effect`, a field at a time. -/

namespace Sys2Proof.Machine

variable {s t u : State} {i : Instr}

/-! ## Straight-line instructions -/

theorem Writes.cyc (w : Writes s i u) : u.cyc = s.cyc := by
  cases w <;> simp

theorem Writes.stall (w : Writes s i u) : u.stall = s.stall := by
  cases w <;> simp

theorem Writes.pc (w : Writes s i u) : u.pc = s.pc := by
  cases w <;> simp

theorem Writes.x (w : Writes s i u) (h : mayWriteX s i = false) : u.x = s.x := by
  cases w with
  | active hx => simp_all
  | dxy => simp_all [mayWriteX]
  | general _ hx => simp_all [State.writeReg_x]
  | mov | div | pop => simp_all [mayWriteX, State.writeReg_x]
  | nothing | status | store | push | portOut | console => simp

theorem Writes.y (w : Writes s i u) (h : mayWriteY s i = false) : u.y = s.y := by
  cases w with
  | active _ hy => simp_all
  | dxy => simp_all [mayWriteY]
  | general _ _ hy => simp_all [State.writeReg_y]
  | mov | div | pop => simp_all [mayWriteY, State.writeReg_y]
  | nothing | status | store | push | portOut | console => simp

theorem Writes.sp (w : Writes s i u) (h : mayWriteSp i = false) : u.sp = s.sp := by
  cases w with
  | mov => simp_all [mayWriteSp, State.writeReg_sp]
  | general dest | div dest =>
    obtain rfl | rfl := isGeneral_iff.mp dest <;> rfl
  | push | pop => cases h
  | nothing | active | dxy | status | store | portOut | console => simp

/-- Only MOV to EM writes EM, and it writes the source's value, 0 or 1. -/
theorem Writes.em (w : Writes s i u) :
    u.em = s.em ∨ ∃ src v, i = .mov src .em ∧ movValue s src = some v ∧ (v = 0 ∨ v = 1) ∧ u.em = v := by
  cases w with
  | @mov src d v value _ accepted =>
    by_cases hd : d = .em
    · subst hd
      exact .inr ⟨src, v, rfl, value, by simpa [emAccepts] using accepted, rfl⟩
    · simp [State.writeReg_em, hd]
  | general dest | div dest =>
    obtain rfl | rfl := isGeneral_iff.mp dest <;> exact .inl rfl
  | @pop r _ dest =>
    have : r ≠ .em := by rintro rfl; cases dest
    simp [State.writeReg_em, this]
  | nothing | active | dxy | status | store | push | portOut | console => simp

/-- A bit of STATUS outside the instruction's rows of R28's table is kept. -/
theorem Writes.statusBit (w : Writes s i u) {j : Nat} (h : mayWriteBit i j = false) :
    u.status.getLsbD j = s.status.getLsbD j := by
  cases w with
  | status keeps => exact keeps j h
  | dxy | div => exact getLsbD_divStatus (of_decide_eq_false h)
  | @mov _ d _ _ dest =>
    have : d ≠ .status := by rintro rfl; cases dest
    simp [State.writeReg_status, this]
  | general dest =>
    obtain rfl | rfl := isGeneral_iff.mp dest <;> rfl
  | pop => simp [State.writeReg_status, of_decide_eq_false h]
  | nothing | active | store | push | portOut | console => simp

theorem Writes.mem_wf (w : Writes s i u) (h : s.mem.wf = true) : u.mem.wf = true := by
  cases w with
  | store | push => exact Memory.wf_write _ _ _ (toNat_lt_size _) h
  | nothing | active | dxy | status | mov | general | div | pop | portOut | console => simpa using h

theorem Writes.outputs (w : Writes s i u) : ∃ new, u.outputs = s.outputs ++ new := by
  cases w with
  | portOut | console => exact ⟨_, rfl⟩
  | nothing | active | dxy | status | store | mov | general | div | push | pop => exact ⟨[], by simp⟩

theorem Writes.portWrites (w : Writes s i u) (h : ∀ src port, i ≠ .portOut src port) :
    u.portWrites = s.portWrites := by
  cases w with
  | portOut => exact absurd rfl (h _ _)
  | nothing | active | dxy | status | store | mov | general | div | push | pop | console => simp

theorem Writes.console_eq (w : Writes s i u) (hl : i ≠ .dbgLgc) (hm : i ≠ .dbgMem) : u.console = s.console := by
  cases w with
  | console opcode => exact absurd opcode (not_or.mpr ⟨hl, hm⟩)
  | nothing | active | dxy | status | store | mov | general | div | push | pop | portOut => simp

/-! ## All instructions -/

theorem Effect.cyc (e : Effect s i t) : t.cyc = s.cyc := by
  cases e with
  | straight _ w => exact w.cyc
  | jump | waitNone | wait | vblank | answered | prompting => simp

theorem Effect.em (e : Effect s i t) :
    t.em = s.em ∨ ∃ src v, i = .mov src .em ∧ movValue s src = some v ∧ (v = 0 ∨ v = 1) ∧ t.em = v := by
  cases e with
  | straight _ w => exact w.em
  | jump | waitNone | wait | vblank | answered | prompting => simp

theorem Effect.statusBit (e : Effect s i t) {j : Nat} (h : mayWriteBit i j = false) :
    t.status.getLsbD j = s.status.getLsbD j := by
  cases e with
  | straight _ w => exact w.statusBit h
  | jump | waitNone | wait | vblank | answered | prompting => simp

theorem Effect.mem_wf (e : Effect s i t) (h : s.mem.wf = true) : t.mem.wf = true := by
  cases e with
  | straight _ w => exact w.mem_wf h
  | jump | waitNone | wait | vblank | answered | prompting => simpa using h

/-- A straight-line instruction is no jump. -/
theorem jumpOf_eq_none (h : setsPc i = false) : jumpOf s i = none := by
  cases i with
  | jpz | jnz | jmp | jeq | jne | jlt | jgt | jle | jge => cases h
  | _ => rfl

end Sys2Proof.Machine
end
section
/-! Settles the tier 3 statement O11. -/

namespace Sys2Proof.Machine

variable {s t u : State} {i : Instr}

theorem State.inv_iff : s.inv = true ↔ s.mem.wf = true ∧ s.legalMode = true ∧ s.stallSound = true := by
  simp [State.inv, and_assoc]

/-- A running CPU has a sound stall state. -/
theorem State.stallSound_of_running (h : s.stall = .running) : s.stallSound = true := by
  simp [State.stallSound, h]

/-- MOV to EM leaves a legal mode, and nothing else changes it. -/
theorem Effect.legalMode (e : Effect s i t) (h : s.legalMode = true) : t.legalMode = true := by
  obtain kept | ⟨_, v, -, -, legal, written⟩ := e.em
  · simpa [State.legalMode, kept] using h
  · simpa [State.legalMode, written] using legal

/-- An instruction of a running CPU retires into a sound stall state: a WAIT begins before its count has passed, and only
a CPU in legacy mode prompts. -/
theorem Effect.retire_stallSound (e : Effect s i t) (hr : s.stall = .running) (hh : s.halted = false) :
    t.retire.stallSound = true := by
  cases e with
  | straight _ w => exact State.stallSound_of_running (w.stall.trans hr)
  | jump | waitNone => exact State.stallSound_of_running hr
  | answered => exact State.stallSound_of_running (by simpa [State.retire] using hr)
  | @wait _ n positive =>
    have notOver : waitOver s.cyc s.cyc n = false := by
      have : n.toNat ≠ 0 := fun h => positive (BitVec.eq_of_toNat_eq h)
      simp [waitOver]
      omega
    simp [State.stallSound, State.retire, notOver, hh]
  | vblank => simp [State.stallSound, State.retire, hh]
  | prompting legacy => simp [State.stallSound, State.retire, hh, legacy]

theorem Effect.retire_inv (e : Effect s i t) (h : s.inv = true) (hr : s.stall = .running) (hh : s.halted = false) :
    t.retire.inv = true := by
  obtain ⟨hmem, hmode, -⟩ := State.inv_iff.mp h
  exact State.inv_iff.mpr ⟨e.mem_wf hmem, e.legalMode hmode, e.retire_stallSound hr hh⟩

/-- A stalled CPU that runs on keeps the invariant, whatever it took and however long it needed. -/
theorem State.resume_elapse_inv (n : Nat) (hm : s.mem.wf = true) (hl : s.legalMode = true) :
    (s.resume.elapse n).inv = true :=
  State.inv_iff.mpr ⟨hm, hl, State.stallSound_of_running rfl⟩

theorem State.waitCycle_inv {start n : Word} (h : s.inv = true) (hs : s.stall = .waiting start n)
    (hh : s.halted = false) : (s.waitCycle start n).inv = true := by
  obtain ⟨hmem, hmode, -⟩ := State.inv_iff.mp h
  unfold State.waitCycle
  split
  · exact State.resume_elapse_inv _ hmem hmode
  · next notOver =>
    refine State.inv_iff.mpr ⟨hmem, hmode, ?_⟩
    simpa [State.stallSound, hs, hh] using notOver

theorem State.vblankCycle_inv (h : s.inv = true) (hs : s.stall = .vblankWait) (hh : s.halted = false) :
    s.vblankCycle.inv = true := by
  obtain ⟨hmem, hmode, -⟩ := State.inv_iff.mp h
  unfold State.vblankCycle
  split
  · exact State.resume_elapse_inv _ hmem hmode
  · refine State.inv_iff.mpr ⟨hmem, hmode, ?_⟩
    simp [State.stallSound, hs, hh]

theorem State.promptCycle_inv (h : s.inv = true) (hs : s.stall = .prompting) : s.promptCycle.inv = true := by
  obtain ⟨hmem, hmode, hsound⟩ := State.inv_iff.mp h
  unfold State.promptCycle
  split
  · next v _ =>
    have taken : s.takeAnswer v = (s.emit (.answered v)).setActive v := rfl
    refine State.resume_elapse_inv _ ?_ ?_
    · simpa [taken] using hmem
    · simpa [State.legalMode, taken] using hmode
  · refine State.inv_iff.mpr ⟨hmem, hmode, ?_⟩
    have blocked : s.halted = false ∧ s.em = 0 := by simpa [State.stallSound, hs] using hsound
    simp [State.stallSound, hs, blocked]

/-- Settles O11, by the five things a step can do. -/
theorem stepKeepsTheInvariant : Obligations.StepKeepsTheInvariant := by
  intro s t h hstep
  obtain ⟨-, rfl⟩ | ⟨hh, hr, i, u, -, hexec, rfl⟩ | ⟨hh, start, n, hs, rfl⟩ | ⟨hh, hs, rfl⟩ | ⟨-, hs, rfl⟩ :=
    step_cases hstep
  · exact h
  · exact (exec_effect hexec).retire_inv h hr hh
  · exact State.waitCycle_inv h hs hh
  · exact State.vblankCycle_inv h hs hh
  · exact State.promptCycle_inv h hs

end Sys2Proof.Machine
end

section
/-! Settles the tier 2 statements of spec/10_state.md: what the 53 instructions leave alone (O15 to O20), and the mode
that has them (O22). -/

namespace Sys2Proof.Machine

variable {s t u : State} {i : Instr}

/-- Settles O15. -/
theorem noInstructionWritesCyc : Obligations.NoInstructionWritesCyc := fun _ _ _ h => (exec_effect h).cyc

/-- Settles O16. -/
theorem onlyTabledInstructionsWriteStatus : Obligations.OnlyTabledInstructionsWriteStatus :=
  fun _ _ _ _ h untabled => (exec_effect h).statusBit untabled

/-- The instructions in R28's row of the illegal-division flag, and those that write all of STATUS. -/
theorem mayWriteBit_dz (h : mayWriteBit i 5 = true) :
    i = .dxy ∨ (∃ src d, i = .div src d) ∨ i = .clr ∨ i = .pop .status := by
  cases i with
  | dxy | clr => simp
  | div => simp
  | pop r => simp [of_decide_eq_true h]
  | _ => cases h

/-- DXY does not clear the flag. -/
theorem execDxy_keeps_dz (h : execDxy s = .next t) (set : s.status.getLsbD 5 = true) : t.status.getLsbD 5 = true := by
  cases State.done_next.mp (State.legacyOnly_next.mp h).2
  exact divStatus_keeps_dz set

/-- DIV does not clear the flag. -/
theorem execDiv_keeps_dz {src : Src} {d : Reg} (h : execDiv src d s = .next t) (set : s.status.getLsbD 5 = true) :
    t.status.getLsbD 5 = true := by
  obtain ⟨-, q, v, rfl⟩ := execDiv_next h
  exact divStatus_keeps_dz set

/-- Settles O17: of the instructions that may write bit 5, the divisions only set it. -/
theorem divisionFlagIsSticky : Obligations.DivisionFlagIsSticky := by
  intro i s t h set
  cases writes : mayWriteBit i 5 with
  | false => exact .inl (((exec_effect h).statusBit writes).trans set)
  | true =>
    obtain rfl | ⟨src, d, rfl⟩ | rest := mayWriteBit_dz writes
    · exact .inl (execDxy_keeps_dz h set)
    · exact .inl (execDiv_keeps_dz h set)
    · exact .inr rest

/-- Settles O18. -/
theorem onlyMovChangesTheMode : Obligations.OnlyMovChangesTheMode := fun _ _ _ h => (exec_effect h).em

/-- Settles O19. -/
theorem straightLineAdvancesByThree : Obligations.StraightLineAdvancesByThree := by
  intro i s t h
  cases exec_effect h with
  | straight hi w =>
    refine ⟨fun _ => by simp [w.pc], fun target taken hj => ?_, ?_⟩
    · rw [jumpOf_eq_none hi] at hj
      cases hj
    · rintro rfl
      cases hi
  | @jump _ target taken hi =>
    refine ⟨fun hs => ?_, fun target' taken' hj => ?_, ?_⟩
    · rw [jumpOf_eq_none hs] at hi
      cases hi
    · cases hi.symm.trans hj
      rfl
    · rintro rfl
      cases hi
  | waitNone | wait | vblank => simp [setsPc, jumpOf]
  | answered typed | prompting _ typed => simp [setsPc, jumpOf, typed]

/-- What a straight-line instruction leaves alone of the registers, the outputs and the stall state. -/
theorem Writes.registers (w : Writes s i u) :
    (mayWriteX s i = false → u.x = s.x) ∧ (mayWriteY s i = false → u.y = s.y) ∧
      (mayWriteSp i = false → u.sp = s.sp) ∧ (∃ new, u.outputs = s.outputs ++ new) ∧
      ((∀ src port, i ≠ .portOut src port) → u.portWrites = s.portWrites) ∧
      (i ≠ .dbgLgc → i ≠ .dbgMem → i ≠ .dbgInp → u.console = s.console) ∧
      ((∀ src, i ≠ .wait src) → i ≠ .vblank → i ≠ .dbgInp → u.stall = s.stall) :=
  ⟨w.x, w.y, w.sp, w.outputs, w.portWrites, fun hl hm _ => w.console_eq hl hm, fun _ _ _ => w.stall⟩

/-- Settles O20. -/
theorem registersChangeOnlyWhereWritten : Obligations.RegistersChangeOnlyWhereWritten := by
  intro i s t h
  cases exec_effect h with
  | straight _ w => exact w.registers
  | jump | waitNone | wait | vblank => simp
  | answered | prompting => simp +contextual [mayWriteX, mayWriteY]

/-- An instruction of legacy mode begins with the check of that mode. -/
theorem exec_legacyOnly (h : availabilityOf (opcodeId i) = .legacy) : ∃ k, exec i s = s.legacyOnly k := by
  cases i with
  | lfm | wtm | sra | axy | sxy | mxy | dxy | equ | leq | jpz | jnz | clr | bsl | bsr | andLegacy | ora | xorLegacy | dwr
  | ilm | iwr | inc | dec | dbgLgc | dbgMem | dbgInp => exact ⟨_, rfl⟩
  | _ => cases h

/-- An instruction of extension mode begins with the check of that mode. -/
theorem exec_extensionOnly (h : availabilityOf (opcodeId i) = .extension) : ∃ k, exec i s = s.extensionOnly k := by
  cases i with
  | portIn | portOut => exact ⟨_, rfl⟩
  | _ => cases h

/-- Settles O22. -/
theorem instructionsOutsideTheirModeAreRefused : Obligations.InstructionsOutsideTheirModeAreRefused := by
  intro i s
  constructor
  · intro available outside
    obtain ⟨k, hk⟩ := exec_legacyOnly (s := s) available
    rw [hk, State.legacyOnly_refused outside]
  · intro available outside
    obtain ⟨k, hk⟩ := exec_extensionOnly (s := s) available
    rw [hk, State.extensionOnly_refused outside]

end Sys2Proof.Machine
end

section
/-! SUPPORT. Runs, and the cycles of a stalled CPU that pass one by one. -/

namespace Sys2Proof.Machine

variable {s t u : State} {k : Nat}

/-! ## Runs -/

theorem Reaches.zero (s : State) : Reaches 0 s s := rfl

theorem reaches_succ (h : step s = .next t) : Reaches (k + 1) s u ↔ Reaches k t u := by
  have first : Sys2Proof.core.step s = .next t := h
  simp [Reaches, Host.Core.run, first]

/-- One more step at the end of a run. -/
theorem Reaches.snoc (h : Reaches k s t) (hstep : step t = .next u) : Reaches (k + 1) s u := by
  induction k generalizing s with
  | zero =>
    cases h
    exact (reaches_succ hstep).mpr (Reaches.zero u)
  | succ k ih =>
    cases first : step s with
    | next s' => exact (reaches_succ first).mpr (ih ((reaches_succ first).mp h))
    | fault f => cases f
    | refused r =>
      have first : Sys2Proof.core.step s = .refused r := first
      simp [Reaches, Host.Core.run, first] at h

theorem step_halted (h : s.halted = true) : step s = .next s := by
  simp [step, h]

/-- A halted CPU stays as it is for any number of steps. -/
theorem reaches_self_of_halted (h : s.halted = true) (k : Nat) : Reaches k s s := by
  induction k with
  | zero => exact Reaches.zero s
  | succ k ih => exact (reaches_succ (step_halted h)).mpr ih

theorem step_running {i : Instr} (hh : s.halted = false) (hs : s.stall = .running) (fetched : s.fetched = .ok i) :
    step s = retired (exec i s) := by
  simp [step, hh, hs, State.runCycle, fetched]

/-! ## Stalled CPUs -/

theorem step_waiting {start n : Word} (hh : s.halted = false) (hs : s.stall = .waiting start n) :
    step s = .next (s.waitCycle start n) := by
  simp [step, hh, hs]

theorem step_vblankWait (hh : s.halted = false) (hs : s.stall = .vblankWait) : step s = .next s.vblankCycle := by
  simp [step, hh, hs]

/-- `k` cycles of a stalled CPU lead from `s` to `t`, and it is stalled still: all but CYC stands still (R43a), and what
the other agents present is drawn anew in every step. -/
structure IdlesTo (k : Nat) (s t : State) : Prop where
  reaches : Reaches k s t
  stall : t.stall = s.stall
  pc : t.pc = s.pc
  cyc : t.cyc = s.cyc + BitVec.ofNat 16 k
  now : t.now = s.now + k
  inputs : t.inputs = if k = 0 then s.inputs else inputsAt (s.now + k)
  frozen : SameFrozen s t

theorem IdlesTo.zero (s : State) : IdlesTo 0 s s where
  reaches := Reaches.zero s
  stall := rfl
  pc := rfl
  cyc := by simp
  now := rfl
  inputs := rfl
  frozen := ⟨rfl, rfl, rfl, rfl, rfl, rfl, rfl⟩

/-- One more idle cycle. -/
theorem IdlesTo.succ (h : IdlesTo k s t) (hstep : step t = .next (t.elapse 1)) : IdlesTo (k + 1) s (t.elapse 1) where
  reaches := h.reaches.snoc hstep
  stall := h.stall
  pc := h.pc
  cyc := by simp [h.cyc, BitVec.ofNat_add, BitVec.add_assoc]
  now := by simp [h.now, Nat.add_assoc]
  inputs := by simp [h.now, Nat.add_assoc]
  frozen := h.frozen

theorem IdlesTo.halted (h : IdlesTo k s t) (hh : s.halted = false) : t.halted = false := by
  obtain ⟨-, -, status, -⟩ := h.frozen
  simpa [State.halted, State.flag, status] using hh

/-- The cycle in which the stall ends: the CPU runs at the following instruction. -/
theorem IdlesTo.resume (h : IdlesTo k s t) (hstep : step t = .next (t.resume.elapse t.instrCycles)) :
    ∃ u, Reaches (k + 1) s u ∧ u.stall = .running ∧ u.pc = s.pc + 3 ∧
      u.cyc = s.cyc + BitVec.ofNat 16 (k + 1) + BitVec.ofNat 16 (Config.extraCycles (s.now + k)) ∧ SameFrozen s u := by
  refine ⟨_, h.reaches.snoc hstep, rfl, by simp [h.pc], ?_, h.frozen⟩
  simp [h.cyc, h.now, State.instrCycles, BitVec.ofNat_add, BitVec.add_assoc]

/-! ## WAIT -/

/-- The cycles counted since a WAIT began, as a number, for as long as they do not wrap. -/
theorem toNat_elapsed {cyc start : Word} {k : Nat} (h : (cyc - start).toNat + k < 65536) :
    (cyc + BitVec.ofNat 16 k - start).toNat = (cyc - start).toNat + k := by
  rw [add_sub_right_comm, BitVec.toNat_add, BitVec.toNat_ofNat]
  omega

/-- After `k` cycles and one more, the count of a WAIT has passed exactly if it has in numbers. -/
theorem waitOver_elapsed {cyc start n : Word} {k : Nat} (h : (cyc - start).toNat + k < n.toNat) :
    waitOver (cyc + BitVec.ofNat 16 k + 1) start n = decide (n.toNat ≤ (cyc - start).toNat + k + 1) := by
  have oneMore : cyc + BitVec.ofNat 16 k + 1 = cyc + BitVec.ofNat 16 (k + 1) := by
    simp [BitVec.ofNat_add, BitVec.add_assoc]
  have := n.isLt
  rw [waitOver, oneMore, toNat_elapsed (by omega), Nat.add_assoc]

/-- While its count has not passed, a WAIT idles. -/
theorem wait_idles {start n : Word} (hh : s.halted = false) (hs : s.stall = .waiting start n)
    (h : (s.cyc - start).toNat + k < n.toNat) : ∃ t, IdlesTo k s t := by
  induction k with
  | zero => exact ⟨s, IdlesTo.zero s⟩
  | succ k ih =>
    obtain ⟨t, idles⟩ := ih (by omega)
    have notOver : waitOver (t.cyc + 1) start n = false := by
      rw [idles.cyc, waitOver_elapsed (by omega)]
      exact decide_eq_false (by omega)
    have hstep := step_waiting (idles.halted hh) (idles.stall.trans hs)
    rw [State.waitCycle, notOver] at hstep
    exact ⟨_, idles.succ hstep⟩

/-- The cycle that completes its count ends a WAIT. -/
theorem wait_resumes {start n : Word} (hh : s.halted = false) (hs : s.stall = .waiting start n)
    (h : (s.cyc - start).toNat + k + 1 = n.toNat) :
    ∃ u, Reaches (k + 1) s u ∧ u.stall = .running ∧ u.pc = s.pc + 3 ∧
      u.cyc = s.cyc + BitVec.ofNat 16 (k + 1) + BitVec.ofNat 16 (Config.extraCycles (s.now + k)) ∧ SameFrozen s u := by
  obtain ⟨t, idles⟩ := wait_idles (k := k) hh hs (by omega)
  have passed : waitOver (t.cyc + 1) start n = true := by
    rw [idles.cyc, waitOver_elapsed (by omega)]
    exact decide_eq_true (by omega)
  have hstep := step_waiting (idles.halted hh) (idles.stall.trans hs)
  rw [State.waitCycle, passed] at hstep
  exact idles.resume hstep

/-! ## VBLANK -/

/-- The display's signal in the `j`-th step from `s` on: that of the present step is an input. -/
def State.signalIn (s : State) (j : Nat) : Bool := if j = 0 then s.inputs.vblank else vblankRaised (s.now + j)

theorem IdlesTo.vblank_eq (h : IdlesTo k s t) : t.inputs.vblank = s.signalIn k := by
  rw [h.inputs, State.signalIn]
  split <;> rfl

/-- Until a signal is raised, a VBLANK idles. -/
theorem vblank_idles (hh : s.halted = false) (hs : s.stall = .vblankWait) (h : ∀ j, j < k → s.signalIn j = false) :
    ∃ t, IdlesTo k s t := by
  induction k with
  | zero => exact ⟨s, IdlesTo.zero s⟩
  | succ k ih =>
    obtain ⟨t, idles⟩ := ih fun j hj => h j (by omega)
    have hstep := step_vblankWait (idles.halted hh) (idles.stall.trans hs)
    rw [State.vblankCycle, idles.vblank_eq, h k (by omega)] at hstep
    exact ⟨_, idles.succ hstep⟩

/-- The first signal ends a VBLANK. -/
theorem vblank_resumes (hh : s.halted = false) (hs : s.stall = .vblankWait) (h : ∀ j, j < k → s.signalIn j = false)
    (raised : s.signalIn k = true) :
    ∃ u, Reaches (k + 1) s u ∧ u.stall = .running ∧ u.pc = s.pc + 3 ∧ SameFrozen s u := by
  obtain ⟨t, idles⟩ := vblank_idles hh hs h
  have hstep := step_vblankWait (idles.halted hh) (idles.stall.trans hs)
  rw [State.vblankCycle, idles.vblank_eq, raised] at hstep
  obtain ⟨u, reaches, stall, pc, -, frozen⟩ := idles.resume hstep
  exact ⟨u, reaches, stall, pc, frozen⟩

/-- There is a first signal: the one of the present step, or the one that is due next. -/
theorem exists_first_signal (s : State) : ∃ k, s.signalIn k = true ∧ ∀ j, j < k → s.signalIn j = false := by
  cases present : s.inputs.vblank with
  | true => exact ⟨0, present, fun j hj => absurd hj (Nat.not_lt_zero j)⟩
  | false =>
    have later : ∀ j, j ≤ vblankDue (s.now + 1) →
        s.signalIn (j + 1) = decide (vblankDue (s.now + 1) - j = 0) := fun j hj => by
      have : s.now + (j + 1) = s.now + 1 + j := by omega
      rw [State.signalIn, if_neg (Nat.succ_ne_zero j), vblankRaised, this, vblankDue_add _ _ hj]
    refine ⟨vblankDue (s.now + 1) + 1, by simp [later], fun j hj => ?_⟩
    cases j with
    | zero => exact present
    | succ j =>
      rw [later j (by omega)]
      exact decide_eq_false (by omega)

end Sys2Proof.Machine
end
section
/-! Settles the tier 3 statements O53 and O54, and the statements about a step and a halted CPU, O8, O10 and O34. -/

namespace Sys2Proof.Machine

/-- Settles O53. -/
theorem waitEndsWhenItsCyclesHavePassed : Obligations.WaitEndsWhenItsCyclesHavePassed := by
  intro s start n hh hs h
  constructor
  · intro k hk
    obtain ⟨t, idles⟩ := wait_idles (k := k) hh hs (by omega)
    exact ⟨t, idles.reaches, idles.stall.trans hs, idles.pc, idles.cyc, idles.frozen⟩
  · obtain ⟨k, hk⟩ : ∃ k, n.toNat - (s.cyc - start).toNat = k + 1 := Nat.exists_eq_add_one.mpr (by omega)
    obtain ⟨u, reaches, stall, pc, cyc, frozen⟩ := wait_resumes (k := k) hh hs (by omega)
    have counted : s.cyc + BitVec.ofNat 16 (k + 1) = start + n := by
      have : n = s.cyc - start + BitVec.ofNat 16 (k + 1) := by
        apply BitVec.eq_of_toNat_eq
        have := n.isLt
        rw [BitVec.toNat_add, BitVec.toNat_ofNat]
        omega
      rw [this, ← BitVec.add_assoc, BitVec.add_comm start, BitVec.sub_add_cancel]
    rw [hk]
    exact ⟨u, reaches, stall, pc, counted ▸ cyc, frozen⟩

/-- Settles O54. -/
theorem vblankEndsWithTheNextSignal : Obligations.VblankEndsWithTheNextSignal := by
  intro s hh hs
  constructor
  · intro k quiet
    obtain ⟨t, idles⟩ := vblank_idles hh hs quiet
    exact ⟨⟨t, idles.reaches, idles.stall.trans hs, idles.pc, idles.cyc, idles.frozen⟩, vblank_resumes hh hs quiet⟩
  · obtain ⟨k, raised, quiet⟩ := exists_first_signal s
    exact ⟨k + 1, vblank_resumes hh hs quiet raised⟩

/-- Settles O8. -/
theorem stepRunsDecodedInstruction : Obligations.StepRunsDecodedInstruction := by
  intro s i hh hs hdecode _
  have fetched : s.fetched = .ok i := by simpa [State.fetched, State.fetchWord] using hdecode
  rw [step_running hh hs fetched]
  cases exec i s <;> rfl

/-- Settles O10. -/
theorem haltedCpuStaysAsItIs : Obligations.HaltedCpuStaysAsItIs := fun _ k h => reaches_self_of_halted h k

/-- Settles O34. -/
theorem hltHalts : Obligations.HltHalts := by
  intro s
  have bit := fun j => getLsbD_withBit s.status bitHF j true (by decide)
  have halted : (withBit s.status bitHF true).getLsbD bitHF = true := by simp [bit]
  refine ⟨withBit s.status bitHF true, rfl, ⟨halted, fun j hj => (bit j).trans (if_neg hj)⟩, ?_⟩
  exact reaches_self_of_halted halted

end Sys2Proof.Machine
end

section
/-! Settles the tier 1 statements of spec/10_state.md: reset (O12, O13), MOV (O38, O39), register operands outside their set
(O48) and the stack (O49, O50). -/

namespace Sys2Proof.Machine

variable {s : State}

/-- Settles O12. -/
theorem resetMeetsTheInvariant : Obligations.ResetMeetsTheInvariant :=
  State.inv_iff.mpr ⟨reset_mem_wf, rfl, rfl⟩

/-- Settles O13. -/
theorem resetLeavesTheStatedValues : Obligations.ResetLeavesTheStatedValues := ⟨rfl, rfl, rfl, rfl, rfl, rfl⟩

/-! ## MOV -/

/-- MOV of a value its destination takes. -/
theorem exec_mov {src : Src} {d : Reg} {v : Word} (value : movValue s src = some v) (dest : isMovDest d = true) :
    exec (.mov src d) s = if emAccepts d v then (s.writeReg d v).done else .refused .emValue := by
  have : exec (.mov src d) s = execMov src d s := rfl
  rw [this, execMov, State.withSource_mov _ value, requireReg, if_pos dest]

/-- Settles O38. -/
theorem movCopies : Obligations.MovCopies := by
  intro s src v value
  exact ⟨exec_mov value rfl, exec_mov value rfl, exec_mov value rfl⟩

/-- Settles O39. -/
theorem movToEmTakesZeroAndOne : Obligations.MovToEmTakesZeroAndOne := by
  intro s src v value
  have accepts : emAccepts .em v = decide (v.toNat ≤ 1) := by
    simp [emAccepts, BitVec.toNat_eq, ← Bool.decide_or]
    omega
  rw [exec_mov value rfl, accepts]
  constructor
  · intro legal
    simp [legal]
    rfl
  · intro illegal
    simp [Nat.not_le.mpr illegal]

/-! ## Registers outside their set -/

/-- An ALU instruction whose operands are not both in their sets is refused. -/
theorem State.withAlu_refused {src : Src} {d : Reg} (k : Word → Word → Result)
    (h : moiValue s src = none ∨ isGeneral d = false) : s.withAlu src d k = .refused .registerOperand := by
  cases value : moiValue s src with
  | none => exact State.withSource_moi_refused _ value
  | some v =>
    have : isGeneral d = false := by simpa [value] using h
    rw [State.withAlu, State.withSource_moi _ value, requireReg, this]
    rfl

/-- The nine ALU instructions begin with the checks of their operands. -/
theorem exec_eq_withAlu {make : Src → Reg → Instr} (src : Src) (d : Reg)
    (h : make ∈ [Instr.add, Instr.sub, Instr.mul, Instr.div, Instr.and, Instr.or, Instr.xor, Instr.shl, Instr.shr]) :
    ∃ k, exec (make src d) s = s.withAlu src d k := by
  simp only [List.mem_cons, List.not_mem_nil, or_false] at h
  obtain rfl | rfl | rfl | rfl | rfl | rfl | rfl | rfl | rfl := h <;>
    simp only [exec, execAdd, execSub, execMul, execDiv, execAnd, execOr, execXor, execShl, execShr, State.alu] <;>
    exact ⟨_, rfl⟩

theorem isGeneral_eq_false {r : Reg} : isGeneral r = false ↔ r ≠ .x ∧ r ≠ .y := by
  cases r <;> simp [isGeneral]

/-- A port number below 8 is taken. -/
theorem withPort_ofNat (p : Fin 8) (k : Fin 8 → Result) : withPort (BitVec.ofNat 16 p.val) k = k p := by
  have small : (BitVec.ofNat 16 p.val).toNat = p.val := by
    rw [BitVec.toNat_ofNat]
    omega
  simp only [withPort, small, p.isLt, dite_true, Fin.eta]

theorem exec_mov_refused {src : Src} {r : Reg} (h : movValue s src = none ∨ isMovDest r = false) :
    exec (.mov src r) s = .refused .registerOperand := by
  have unfolded : exec (.mov src r) s = execMov src r s := rfl
  cases value : movValue s src with
  | none => rw [unfolded, execMov, State.withSource_mov_refused _ value]
  | some v =>
    have : isMovDest r = false := by simpa [value] using h
    rw [unfolded, execMov, State.withSource_mov _ value, requireReg, this]
    rfl

/-- Settles O48. -/
theorem registersOutsideTheSetAreRefused : Obligations.RegistersOutsideTheSetAreRefused := by
  intro s src m r
  refine ⟨fun h make member => ?alu, fun h => exec_mov_refused ?mov, fun h => ?moi, fun hx hy => ?general,
    fun h => ?stack⟩
  case alu =>
    have outside : moiValue s src = none ∨ isGeneral r = false := h.imp_right isGeneral_eq_false.mpr
    obtain ⟨k, unfolded⟩ := exec_eq_withAlu (s := s) src r member
    rw [unfolded, State.withAlu_refused k outside]
  case mov =>
    refine h.imp_right ?_
    rintro (rfl | rfl | rfl) <;> rfl
  case moi => exact ⟨State.withSource_moi_refused _ h, State.withSource_moi_refused _ h⟩
  case general =>
    have foreign := isGeneral_eq_false.mpr ⟨hx, hy⟩
    have refused : ∀ k, requireReg (isGeneral r) k = .refused .registerOperand := fun k => by
      rw [foreign]
      rfl
    refine ⟨refused _, fun extension p => ⟨?_, ?_⟩⟩
    · exact (State.extensionOnly_extension extension).trans ((withPort_ofNat p _).trans (refused _))
    · exact (State.extensionOnly_extension extension).trans ((withPort_ofNat p _).trans (refused _))
  case stack =>
    have foreign : isStackReg r = false := by simpa [stackValue_eq] using h
    have refused : ∀ k, requireReg (isStackReg r) k = .refused .registerOperand := fun k => by
      rw [foreign]
      rfl
    exact ⟨refused _, refused _⟩

/-! ## The stack -/

/-- PUSH of a register it may read is a store at the new SP. -/
theorem exec_push {r : Reg} {v : Word} (value : stackValue s r = some v) :
    exec (.push r) s = (s.setSp (s.sp - 1)).storeDone (s.sp - 1) v := by
  rw [stackValue_eq] at value
  split at value <;> cases value
  next allowed =>
    have : exec (.push r) s = execPush r s := rfl
    rw [this, execPush, requireReg, if_pos allowed]
    rfl

/-- A store outside ROM changes the word at its address and advances pc. -/
theorem storedAt_write (s : State) (a v : Word) : StoredAt s (s.setMem (s.mem.write a.toNat v)).advance a v := by
  refine ⟨by simp, fun b hb => ?_, rfl⟩
  have : b.toNat ≠ a.toNat := fun h => hb (BitVec.eq_of_toNat_eq h)
  simp [Memory.read_write_other _ _ _ _ this]

/-- Settles O49. -/
theorem pushStoresBelowSp : Obligations.PushStoresBelowSp := by
  intro s r v value
  rw [exec_push value]
  constructor
  · intro outside
    have : (s.setSp (s.sp - 1)).inRom (s.sp - 1) = false := by simpa [State.inRom_eq] using outside
    exact ⟨_, State.storeDone_outside this, storedAt_write _ _ _⟩
  · intro inside
    exact State.storeDone_inside (by simpa [State.inRom_eq] using inside)

/-- Settles O50. -/
theorem popLoadsAtSp : Obligations.PopLoadsAtSp := by
  intro s
  refine ⟨rfl, rfl, rfl, ?_⟩
  rw [← lowByte_eq_setWidth]
  rfl

end Sys2Proof.Machine
end

section
/-! SUPPORT. What an instruction, a step and a run do to memory: each instruction makes at most one write, at the address
its form stores to and outside ROM, and nothing else of the machine makes any. -/

namespace Sys2Proof.Machine

variable {s t u : State} {i : Instr} {k : Nat}

/-! ## Instructions -/

/-- A straight-line instruction leaves memory alone or makes its form's one write, outside ROM. -/
theorem Writes.mem (w : Writes s i u) :
    u.mem = s.mem ∨
      ∃ a v, storeAddress s i = some a ∧ s.inRom a = false ∧ u.mem = s.mem.write a.toNat v := by
  cases w with
  | store address outside => exact .inr ⟨_, _, address, outside, rfl⟩
  | push outside => exact .inr ⟨_, _, rfl, outside, rfl⟩
  | nothing | active | dxy | status | mov | general | div | pop | portOut | console => simp

theorem Effect.mem (e : Effect s i t) :
    t.mem = s.mem ∨
      ∃ a v, storeAddress s i = some a ∧ s.inRom a = false ∧ t.mem = s.mem.write a.toNat v := by
  cases e with
  | straight _ w => exact w.mem
  | jump | waitNone | wait | vblank | answered | prompting => simp

/-- A write of memory leaves the word at every other address of the machine alone. -/
theorem Memory.read_write_of_ne (m : Memory) {a b : Word} (v : Word) (h : b ≠ a) :
    (m.write a.toNat v).read b.toNat = m.read b.toNat :=
  m.read_write_other _ _ _ fun same => h (BitVec.eq_of_toNat_eq same)

/-! ## Steps -/

@[simp] theorem State.retire_mem (s : State) : s.retire.mem = s.mem := rfl

@[simp] theorem State.waitCycle_mem (s : State) (start n : Word) : (s.waitCycle start n).mem = s.mem := by
  unfold State.waitCycle; split <;> rfl

@[simp] theorem State.vblankCycle_mem (s : State) : s.vblankCycle.mem = s.mem := by
  unfold State.vblankCycle; split <;> rfl

@[simp] theorem State.takeAnswer_mem (s : State) (v : Word) : (s.takeAnswer v).mem = s.mem :=
  (s.emit (.answered v)).setActive_mem v

@[simp] theorem State.promptCycle_mem (s : State) : s.promptCycle.mem = s.mem := by
  unfold State.promptCycle; split <;> simp

/-- A step leaves memory alone or makes one write, outside ROM. -/
theorem step_mem (h : step s = .next t) :
    t.mem = s.mem ∨ ∃ a v, s.inRom a = false ∧ t.mem = s.mem.write a.toNat v := by
  obtain ⟨-, rfl⟩ | ⟨-, -, i, u, -, hexec, rfl⟩ | ⟨-, start, n, -, rfl⟩ | ⟨-, -, rfl⟩ | ⟨-, -, rfl⟩ := step_cases h
  · exact .inl rfl
  · obtain kept | ⟨a, v, -, outside, written⟩ := (exec_effect hexec).mem
    · exact .inl kept
    · exact .inr ⟨a, v, outside, written⟩
  · exact .inl (s.waitCycle_mem start n)
  · exact .inl s.vblankCycle_mem
  · exact .inl s.promptCycle_mem

/-- A step keeps the words of ROM: the address of its write, if it makes one, is another. -/
theorem step_keeps_rom {a : Word} (rom : InRom a) (h : step s = .next t) : t.memRead a = s.memRead a := by
  simp only [State.memRead_eq]
  obtain kept | ⟨b, v, outside, written⟩ := step_mem h
  · rw [kept]
  · have other : a ≠ b := by
      rintro rfl
      simp [State.inRom_eq, rom] at outside
    rw [written, Memory.read_write_of_ne _ _ other]

/-! ## Runs -/

/-- A run of one step and more begins with a step that answers a state. -/
theorem Reaches.first_step (h : Reaches (k + 1) s u) : ∃ t, step s = .next t ∧ Reaches k t u := by
  cases first : step s with
  | next t => exact ⟨t, rfl, (reaches_succ first).mp h⟩
  | fault f => cases f
  | refused r =>
    have first : Sys2Proof.core.step s = .refused r := first
    simp [Reaches, Host.Core.run, first] at h

/-- What every step keeps, every run keeps. -/
theorem Reaches.keeps {P : State → Prop} (keep : ∀ u v, step u = .next v → P u → P v) (h : Reaches k s t)
    (start : P s) : P t := by
  induction k generalizing s with
  | zero =>
    cases h
    exact start
  | succ k ih =>
    obtain ⟨u, first, rest⟩ := h.first_step
    exact ih rest (keep s u first start)

end Sys2Proof.Machine
end

section
/-! Settles the tier 3 statement of spec/20_memory.md, O14, and the memory frame O21. -/

namespace Sys2Proof.Machine

/-- Settles O14: a word of ROM still reads as it did at the start is what every step keeps. -/
theorem runsNeverChangeRom : Obligations.RunsNeverChangeRom := by
  intro k s t a rom run
  exact run.keeps (P := fun u => u.memRead a = s.memRead a)
    (fun _ _ hstep same => (step_keeps_rom rom hstep).trans same) rfl

/-- Settles O21. -/
theorem memoryChangesOnlyWhereStored : Obligations.MemoryChangesOnlyWhereStored := by
  intro i s t b h elsewhere
  simp only [State.memRead_eq]
  obtain kept | ⟨a, v, address, -, written⟩ := (exec_effect h).mem
  · rw [kept]
  · have other : b ≠ a := by
      rintro rfl
      exact elsewhere address
    rw [written, Memory.read_write_of_ne _ _ other]

end Sys2Proof.Machine
end

section
/-! Settles the tier 2 statement about the picture the display shows of VRAM, O60. -/

namespace Sys2Proof.Machine

variable {row col row' col' : Fin 100}

/-- The picture has 10000 pixels. -/
theorem pixelIndex_lt (row col : Fin 100) : pixelIndex row col < 10000 := by
  unfold pixelIndex
  omega

/-- Two pixels to a word at least, so 5000 words hold the picture. -/
theorem pixelWord_lt (row col : Fin 100) : pixelWord row col < 5000 := by
  have index := pixelIndex_lt row col
  have atLeastTwo := pixelsPerWord_bounds.1
  calc pixelIndex row col / pixelsPerWord
      ≤ pixelIndex row col / 2 := Nat.div_le_div_left atLeastTwo (by decide)
    _ < 5000 := by omega

/-- A pixel further on never lies in an earlier word. -/
theorem pixelWord_mono (h : pixelIndex row col ≤ pixelIndex row' col') : pixelWord row col ≤ pixelWord row' col' :=
  Nat.div_le_div_right h

/-- A pixel `d` places further on lies at most `d` words further on. -/
theorem pixelWord_le_add {d : Nat} (h : pixelIndex row' col' ≤ pixelIndex row col + d) :
    pixelWord row' col' ≤ pixelWord row col + d := by
  have positive : 0 < pixelsPerWord := Nat.lt_of_lt_of_le (by decide) pixelsPerWord_bounds.1
  calc pixelIndex row' col' / pixelsPerWord
      ≤ (pixelIndex row col + d * pixelsPerWord) / pixelsPerWord :=
        Nat.div_le_div_right (h.trans (Nat.add_le_add_left (Nat.le_mul_of_pos_right d positive) _))
    _ = pixelIndex row col / pixelsPerWord + d := Nat.add_mul_div_right _ _ positive

/-- No word holds more than four pixels: one four places further on lies in a later word. -/
theorem pixelWord_lt_of_four_on (h : pixelIndex row col + 4 ≤ pixelIndex row' col') :
    pixelWord row col < pixelWord row' col' := by
  obtain ⟨atLeastTwo, atMostFour⟩ := pixelsPerWord_bounds
  calc pixelIndex row col / pixelsPerWord
      < pixelIndex row col / pixelsPerWord + 1 := Nat.lt_succ_self _
    _ = (pixelIndex row col + pixelsPerWord) / pixelsPerWord := (Nat.add_div_right _ (by omega)).symm
    _ ≤ pixelIndex row' col' / pixelsPerWord := Nat.div_le_div_right (by omega)

/-- Settles O60. -/
theorem picturesBeginAtTheTopOfVram : Obligations.PicturesBeginAtTheTopOfVram := by
  intro s row col
  have lowest := pixelWord_lt row col
  refine ⟨Nat.zero_div _, fun _ => rfl, by omega, ⟨_, rfl⟩, fun row' col' later => ?_⟩
  have next : pixelIndex row' col' ≤ pixelIndex row col + (pixelIndex row' col' - pixelIndex row col) := by omega
  exact ⟨pixelWord_mono (Nat.le_of_lt later), Nat.sub_le_iff_le_add'.mpr (pixelWord_le_add next),
    pixelWord_lt_of_four_on⟩

end Sys2Proof.Machine
end

section
/-! Settles the tier 1 statements of spec/20_memory.md: the stores WTM, IWR and STR (O25, O40), and the ports (O55). -/

namespace Sys2Proof.Machine

/-! ## Stores -/

/-- A store outside ROM writes one word and advances pc. -/
theorem State.storeDone_storedAt (s : State) {a : Word} (v : Word) (h : ¬ InRom a) :
    ∃ t, s.storeDone a v = .next t ∧ StoredAt s t a v :=
  ⟨_, State.storeDone_outside (by simpa [State.inRom_eq] using h), storedAt_write s a v⟩

/-- A store into ROM is refused. -/
theorem State.storeDone_romStore (s : State) {a : Word} (v : Word) (h : InRom a) :
    s.storeDone a v = .refused .romStore :=
  State.storeDone_inside (by simpa [State.inRom_eq] using h)

/-- Settles O25. -/
theorem legacyStoresWriteOneWord : Obligations.LegacyStoresWriteOneWord := by
  intro s a legacy
  have wtm : exec (.wtm a) s = s.storeDone a s.active := State.legacyOnly_legacy legacy
  have iwr : exec .iwr s = s.storeDone s.inactive s.active := State.legacyOnly_legacy legacy
  rw [wtm, iwr]
  exact ⟨s.storeDone_storedAt _, s.storeDone_romStore _, s.storeDone_storedAt _, s.storeDone_romStore _⟩

/-- A memory operand goes on with its address. -/
theorem State.withAddress_memAddress (s : State) (m : MemOp) (k : Word → Result) :
    s.withAddress m k = k (memAddress s m) := by
  cases m <;> rfl

/-- STR of a value its source has is a store at its operand's address. -/
theorem exec_str {s : State} {src : Src} {v : Word} (dst : MemOp) (value : moiValue s src = some v) :
    exec (.str src dst) s = s.storeDone (memAddress s dst) v := by
  have unfolded : exec (.str src dst) s = execStr src dst s := rfl
  rw [unfolded, execStr, State.withSource_moi _ value, State.withAddress_memAddress]

/-- Settles O40. -/
theorem strStoresOneWord : Obligations.StrStoresOneWord := by
  intro s src dst v value
  rw [exec_str dst value]
  exact ⟨s.storeDone_storedAt v, s.storeDone_romStore v⟩

/-! ## Ports -/

/-- A port number above 7 is refused. -/
theorem withPort_refused {q : Word} (k : Fin 8 → Result) (h : 7 < q.toNat) :
    withPort q k = .refused .portNumber :=
  dif_neg (by omega)

/-- In extension mode IN reads the port's device into the register. -/
theorem exec_portIn {s : State} {d : Reg} (p : Fin 8) (extension : s.em = 1) (dest : isGeneral d = true) :
    exec (.portIn (BitVec.ofNat 16 p.val) d) s = (s.writeReg d s.inputs.ports[p]).done := by
  have unfolded : exec (.portIn (BitVec.ofNat 16 p.val) d) s = execPortIn (BitVec.ofNat 16 p.val) d s := rfl
  rw [unfolded, execPortIn, State.extensionOnly_extension extension, withPort_ofNat, requireReg, if_pos dest]
  rfl

/-- In extension mode OUT sends the register to the port. -/
theorem exec_portOut {s : State} {r : Reg} (p : Fin 8) (extension : s.em = 1) (source : isGeneral r = true) :
    exec (.portOut r (BitVec.ofNat 16 p.val)) s = (s.sendPort p (s.readReg r)).done := by
  have unfolded : exec (.portOut r (BitVec.ofNat 16 p.val)) s = execPortOut r (BitVec.ofNat 16 p.val) s := rfl
  rw [unfolded, execPortOut, State.extensionOnly_extension extension, withPort_ofNat, requireReg, if_pos source]

/-- Settles O55: the check of the port number comes before that of the register. -/
theorem portsReadAndWrite : Obligations.PortsReadAndWrite := by
  intro s p q extension
  have refused : 7 < q.toNat → ∀ k, s.extensionOnly (withPort q k) = .refused .portNumber := fun above k =>
    (State.extensionOnly_extension extension).trans (withPort_refused k above)
  exact ⟨exec_portIn p extension rfl, exec_portIn p extension rfl, exec_portOut p extension rfl,
    exec_portOut p extension rfl, fun above _ _ => ⟨refused above _, refused above _⟩⟩

end Sys2Proof.Machine
end

section
/-! SUPPORT. The fields of word 0, the control bytes and the operand words, read and written (spec/30_encoding.md R101
to R103, R110 to R115). -/

namespace Sys2Proof.Laws

open Sys2Proof.Machine (canonicalControls)

/-! ## Word 0 -/

/-- A word is its high byte followed by its low byte. -/
@[simp] theorem wordOfBytes_highByte_lowByte (w : Word) : wordOfBytes (highByte w) (lowByte w) = w := by
  apply BitVec.eq_of_getLsbD_eq
  intro i h
  rw [getLsbD_wordOfBytes]
  by_cases low : i < 8
  · simp [lowByte, low]
  · have high : i - 8 < 8 ∧ 8 + (i - 8) = i := by omega
    simp [highByte, low, high]

@[simp] theorem fieldId_wordOfBytes (id ctl : Byte) : fieldId (wordOfBytes id ctl) = id := highByte_wordOfBytes id ctl
@[simp] theorem fieldCtl_wordOfBytes (id ctl : Byte) : fieldCtl (wordOfBytes id ctl) = ctl := lowByte_wordOfBytes id ctl

/-! ## Control bytes -/

/-- The operand type of a type's code is the type. -/
@[simp] theorem opTypeOfBits_opTypeBits (t : OpType) : opTypeOfBits (opTypeBits t) = t := by
  cases t <;> rfl

section
variable (cnt : BitVec 2) (t1 t2 : OpType)

@[simp] theorem fieldCnt_controlByte : fieldCnt (controlByte cnt t1 t2) = cnt := by
  cases t1 <;> cases t2 <;> revert cnt <;> decide
@[simp] theorem fieldT1_controlByte : fieldT1 (controlByte cnt t1 t2) = opTypeBits t1 := by
  cases t1 <;> cases t2 <;> revert cnt <;> decide
@[simp] theorem fieldT2_controlByte : fieldT2 (controlByte cnt t1 t2) = opTypeBits t2 := by
  cases t1 <;> cases t2 <;> revert cnt <;> decide
@[simp] theorem fieldRsv_controlByte : fieldRsv (controlByte cnt t1 t2) = 0 := by
  cases t1 <;> cases t2 <;> revert cnt <;> decide

end

/-- A control byte with no reserved bit set is put together of its three other fields. -/
theorem controlByte_of_fields {ctl : Byte} (h : fieldRsv ctl = 0) :
    controlByte (fieldCnt ctl) (opTypeOfBits (fieldT1 ctl)) (opTypeOfBits (fieldT2 ctl)) = ctl := by
  revert ctl
  decide

/-- The allowed control bytes are made of the instruction's count and a pair of types in its row of R115. -/
theorem controlAllowed_iff {id ctl : Byte} :
    controlAllowed id ctl = true ↔ ∃ t1 t2, (t1, t2) ∈ allowedTypes id ∧ ctl = controlByte (operandCount id) t1 t2 := by
  simp only [controlAllowed, Bool.and_eq_true, decide_eq_true_eq, List.contains_iff_mem]
  constructor
  · rintro ⟨⟨reserved, count⟩, types⟩
    exact ⟨_, _, types, count ▸ (controlByte_of_fields reserved).symm⟩
  · rintro ⟨t1, t2, types, rfl⟩
    simpa using types

/-- The last column of the table of R115 is made of its other columns. -/
theorem canonicalControls_eq (id : Byte) :
    canonicalControls id = (allowedTypes id).map fun t => controlByte (operandCount id) t.1 t.2 := by
  revert id
  decide

/-- The allowed control bytes are those of the last column of R115. -/
theorem controlAllowed_iff_mem {id ctl : Byte} : controlAllowed id ctl = true ↔ ctl ∈ canonicalControls id := by
  simp only [controlAllowed_iff, canonicalControls_eq, List.mem_map, Prod.exists, eq_comm (a := ctl)]

theorem canonicalControls_eq_nil {id : Byte} : canonicalControls id = [] ↔ allowedTypes id = [] := by
  simp [canonicalControls_eq]

/-! ## Opcode ids -/

/-- The ids of the operand-encoded instructions. -/
theorem allowedTypes_ne_nil_iff {id : Byte} :
    allowedTypes id ≠ [] ↔
      (0x19 ≤ id.toNat ∧ id.toNat ≤ 0x1B) ∨ (0x23 ≤ id.toNat ∧ id.toNat ≤ 0x2E) ∨ id.toNat = 0x30 ∨
        id.toNat = 0x31 := by
  unfold allowedTypes
  split <;> simp_all
  omega

/-- The ids of the non-operand-encoded instructions. -/
theorem isNonOeId_iff {id : Byte} :
    isNonOeId id = true ↔ id.toNat ≤ 0x18 ∨ (0x1C ≤ id.toNat ∧ id.toNat ≤ 0x22) ∨ id.toNat = 0x2F := by
  simp [isNonOeId, or_assoc]

/-! ## Operand words -/

/-- The words that name registers are their ids. -/
theorem regOfId_eq_some {w : Word} {r : Reg} : regOfId w = some r ↔ w = regId r := by
  constructor
  · intro h
    apply BitVec.eq_of_toNat_eq
    unfold regOfId at h
    split at h <;> cases h <;> assumption
  · rintro rfl
    cases r <;> rfl

@[simp] theorem regOfId_regId (r : Reg) : regOfId (regId r) = some r := regOfId_eq_some.mpr rfl

@[simp] theorem memWord_memOfWord (t : BitVec 2) (w : Word) : memWord (memOfWord t w) = w := by
  unfold memOfWord
  split <;> rfl

/-- A source operand is read back from its word. -/
theorem srcOfWord_srcWord {ctl : Byte} {src : Src} (h : fieldT1 ctl = opTypeBits (srcType src)) :
    srcOfWord ctl (srcWord src) = some src := by
  cases src <;> simp [srcOfWord, srcWord, srcType, h]

/-- A memory operand is read back from its word. -/
@[simp] theorem memOfWord_memWord (m : MemOp) : memOfWord (opTypeBits (memType m)) (memWord m) = m := by
  cases m <;> rfl

/-- A source operand that is read has the operand word it was read from and, of a register or an immediate, the type. -/
theorem srcOfWord_eq_some {cnt : BitVec 2} {t1 t2 : OpType} {w : Word} {src : Src}
    (h : srcOfWord (controlByte cnt t1 t2) w = some src) :
    srcWord src = w ∧ (t1 = .reg ∨ t1 = .imm → srcType src = t1) := by
  rw [srcOfWord, fieldT1_controlByte, opTypeOfBits_opTypeBits] at h
  cases t1 with
  | imm =>
    cases h
    simp [srcWord, srcType]
  | reg | dir | ind =>
    obtain ⟨r, read, rfl⟩ := Option.map_eq_some_iff.mp h
    simp [srcWord, srcType, regOfId_eq_some.mp read]

/-- A memory operand that is read has the type it was read under. -/
theorem memType_memOfWord {t : OpType} (w : Word) (h : t = .dir ∨ t = .ind) :
    memType (memOfWord (opTypeBits t) w) = t := by
  obtain rfl | rfl := h <;> rfl

/-- The operands of an instruction with a source and a destination are read word by word. -/
theorem srcDst_eq_some {make : Src → Reg → Instr} {ctl : Byte} {w1 w2 : Word} {i : Instr} :
    srcDst make ctl w1 w2 = some i ↔
      ∃ src dst, srcOfWord ctl w1 = some src ∧ regOfId w2 = some dst ∧ make src dst = i := by
  simp [srcDst, Option.bind_eq_some_iff]

end Sys2Proof.Laws
end

section
/-! SUPPORT. What the decoder reads from an opcode id, a control byte and two operand words (spec/30_encoding.md R105,
R106, R119, R123), and that it reads back what the encoder writes. -/

namespace Sys2Proof.Laws

open Sys2Proof.Machine

variable {id ctl : Byte} {w1 w2 : Word} {i : Instr}

/-! ## The kinds of opcode ids -/

/-- The ids R122 reserves. -/
abbrev ReservedId (id : Byte) : Prop := (0x32 ≤ id.toNat ∧ id.toNat ≤ 0xBF) ∨ 0xC1 ≤ id.toNat

/-- What an opcode id stands for (R118, R122, R123). -/
inductive OpcodeKind (id : Byte) : Prop
  | nonOe (h : isNonOeId id = true)
  | operandEncoded (h : allowedTypes id ≠ [])
  | debug (h : id = 0xC0)
  | reserved (h : ReservedId id)

/-- Every opcode id is of one of the kinds. -/
theorem opcodeKind (id : Byte) : OpcodeKind id := by
  by_cases nonOe : isNonOeId id = true
  · exact .nonOe nonOe
  by_cases operandEncoded : allowedTypes id ≠ []
  · exact .operandEncoded operandEncoded
  by_cases hid : id = 0xC0
  · exact .debug hid
  · rw [isNonOeId_iff] at nonOe
    rw [allowedTypes_ne_nil_iff] at operandEncoded
    have : id.toNat ≠ 0xC0 := fun h => hid (BitVec.eq_of_toNat_eq h)
    exact .reserved (by omega)

theorem isNonOeId_eq_false_iff :
    isNonOeId id = false ↔ (0x19 ≤ id.toNat ∧ id.toNat ≤ 0x1B) ∨ (0x23 ≤ id.toNat ∧ id.toNat ≠ 0x2F) := by
  rw [Bool.eq_false_iff, ne_eq, isNonOeId_iff]
  omega

section
variable (types : allowedTypes id ≠ [])
include types

/-! An operand-encoded id is of no other kind. -/

theorem isNonOeId_of_types : isNonOeId id = false := by
  rw [allowedTypes_ne_nil_iff] at types
  rw [isNonOeId_eq_false_iff]
  omega

theorem ne_debug_of_types : id ≠ 0xC0 := by
  rintro rfl
  exact types rfl

theorem not_reserved_of_types : ¬ ReservedId id := by
  rw [allowedTypes_ne_nil_iff] at types
  omega

end

section
variable (reserved : ReservedId id)
include reserved

/-! A reserved id is of no other kind. -/

theorem isNonOeId_of_reserved : isNonOeId id = false := by
  rw [isNonOeId_eq_false_iff]
  omega

theorem types_of_reserved : allowedTypes id = [] :=
  not_ne_iff.mp fun types => not_reserved_of_types types reserved

theorem ne_debug_of_reserved : id ≠ 0xC0 := by
  rintro rfl
  exact absurd reserved (by decide)

end

/-! ## The tables of the decoder -/

/-- A non-operand-encoded id has an instruction, whatever the operand word. -/
theorem nonOeInstr_isSome (id : Byte) (w1 : Word) : (nonOeInstr id w1).isSome = isNonOeId id := by
  unfold nonOeInstr
  split <;> simp_all [isNonOeId]
  omega

theorem exists_nonOeInstr (w1 : Word) (h : isNonOeId id = true) : ∃ i, nonOeInstr id w1 = some i :=
  Option.isSome_iff_exists.mp ((nonOeInstr_isSome id w1).trans h)

theorem nonOeInstr_eq_none (h : isNonOeId id = false) : nonOeInstr id w1 = none :=
  Option.isNone_iff_eq_none.mp (Option.isSome_eq_false_iff.mp ((nonOeInstr_isSome id w1).trans h))

theorem isNonOeId_of_nonOeInstr (h : nonOeInstr id w1 = some i) : isNonOeId id = true := by
  rw [← nonOeInstr_isSome id w1, h, Option.isSome_some]

theorem opcodeId_of_nonOeInstr (h : nonOeInstr id w1 = some i) : opcodeId i = id := by
  apply BitVec.eq_of_toNat_eq
  unfold nonOeInstr at h
  split at h <;> cases h <;> simp_all [opcodeId]

theorem opcodeId_of_oeInstr (h : oeInstr id ctl w1 w2 = some i) : opcodeId i = id := by
  apply BitVec.eq_of_toNat_eq
  unfold oeInstr at h
  split at h <;> simp only [srcDst_eq_some, Option.map_eq_some_iff, reduceCtorEq] at h
  all_goals grind [opcodeId]

theorem of_debugInstr (h : debugInstr ctl = some i) : i.wf = true ∧ opcodeId i = 0xC0 ∧ controlOf i = ctl := by
  unfold debugInstr at h
  split at h <;> cases h <;> exact ⟨rfl, rfl, BitVec.eq_of_toNat_eq (by simp_all [controlOf])⟩

theorem debugInstr_eq_none : debugInstr ctl = none ↔ 2 < ctl.toNat := by
  unfold debugInstr
  split <;> simp_all
  omega

/-- An operand-encoded instruction that is read under an allowed control byte has that control byte, and with an operand
count of two the operand words it was read from. -/
theorem of_oeInstr (allowed : controlAllowed id ctl = true) (h : oeInstr id ctl w1 w2 = some i) :
    controlOf i = ctl ∧ (operandCount id = 2 → operandWords i = (w1, w2)) := by
  obtain ⟨t1, t2, types, rfl⟩ := controlAllowed_iff.mp allowed
  obtain rfl := opcodeId_of_oeInstr h
  cases i with
  | mov | add | sub | mul | div | and | or | xor | shl | shr =>
    obtain ⟨source, rfl⟩ : (t1 = .reg ∨ t1 = .imm) ∧ t2 = .reg := by
      simpa [opcodeId, allowedTypes, or_and_right] using types
    obtain ⟨src, dst, readSrc, readDst, same⟩ := srcDst_eq_some.mp h
    cases same
    obtain ⟨rfl, type⟩ := srcOfWord_eq_some readSrc
    cases regOfId_eq_some.mp readDst
    exact ⟨congrArg (controlByte 2 · .reg) (type source), fun _ => rfl⟩
  | str src dst =>
    obtain ⟨source, memory⟩ : (t1 = .reg ∨ t1 = .imm) ∧ (t2 = .dir ∨ t2 = .ind) := by
      grind [opcodeId, allowedTypes]
    obtain ⟨src, readSrc, same⟩ := Option.map_eq_some_iff.mp h
    obtain ⟨rfl, rfl⟩ : src = _ ∧ memOfWord (opTypeBits t2) w2 = dst := by simpa using same
    obtain ⟨rfl, type⟩ := srcOfWord_eq_some readSrc
    simp [controlOf, operandWords, type source, memType_memOfWord w2 memory, opcodeId, operandCount]
  | lod src dst =>
    obtain ⟨memory, rfl⟩ : (t1 = .dir ∨ t1 = .ind) ∧ t2 = .reg := by
      simpa [opcodeId, allowedTypes, or_and_right] using types
    obtain ⟨dst, readDst, same⟩ := Option.map_eq_some_iff.mp h
    obtain ⟨rfl, rfl⟩ : memOfWord (opTypeBits t1) w1 = src ∧ dst = _ := by simpa using same
    cases regOfId_eq_some.mp readDst
    simp [controlOf, operandWords, memType_memOfWord w1 memory, opcodeId, operandCount]
  | wait =>
    obtain ⟨source, rfl⟩ : (t1 = .reg ∨ t1 = .imm) ∧ t2 = .reg := by
      simpa [opcodeId, allowedTypes, or_and_right] using types
    obtain ⟨src, readSrc, same⟩ := Option.map_eq_some_iff.mp h
    cases same
    obtain ⟨rfl, type⟩ := srcOfWord_eq_some readSrc
    exact ⟨congrArg (controlByte 1 · .reg) (type source), nofun⟩
  | push | pop =>
    obtain ⟨rfl, rfl⟩ : t1 = .reg ∧ t2 = .reg := by simpa [opcodeId, allowedTypes] using types
    exact ⟨rfl, nofun⟩
  | portIn =>
    obtain ⟨rfl, rfl⟩ : t1 = .imm ∧ t2 = .reg := by simpa [opcodeId, allowedTypes] using types
    obtain ⟨dst, readDst, same⟩ := Option.map_eq_some_iff.mp h
    cases same
    cases regOfId_eq_some.mp readDst
    exact ⟨rfl, fun _ => rfl⟩
  | portOut =>
    obtain ⟨rfl, rfl⟩ : t1 = .reg ∧ t2 = .imm := by simpa [opcodeId, allowedTypes] using types
    obtain ⟨src, readSrc, same⟩ := Option.map_eq_some_iff.mp h
    cases same
    cases regOfId_eq_some.mp readSrc
    exact ⟨rfl, fun _ => rfl⟩
  | _ => cases h

/-! ## The decoder on each kind -/

theorem decodeFields_nonOe (h : nonOeInstr id w1 = some i) : decodeFields id ctl w1 w2 = checkOperands id i := by
  simp only [decodeFields, h]

theorem decodeFields_operandEncoded (h : allowedTypes id ≠ []) :
    decodeFields id ctl w1 w2 =
      if controlAllowed id ctl then (oeInstr id ctl w1 w2).elim (.error (.registerOperand id)) (checkOperands id)
      else .error (.controlByte id) := by
  simp only [decodeFields, nonOeInstr_eq_none (isNonOeId_of_types h), if_neg (ne_debug_of_types h), if_neg h]
  cases oeInstr id ctl w1 w2 <;> rfl

theorem decodeFields_debug : decodeFields 0xC0 ctl w1 w2 = (debugInstr ctl).elim (.error .noOpcode) .ok := by
  cases h : debugInstr ctl <;> simp [decodeFields, nonOeInstr, h]

theorem decodeFields_reserved (h : ReservedId id) : decodeFields id ctl w1 w2 = .error .noOpcode := by
  simp only [decodeFields, nonOeInstr_eq_none (isNonOeId_of_reserved h), if_neg (ne_debug_of_reserved h),
    if_pos (types_of_reserved h)]

/-- What the decoder makes of an opcode id, a control byte and two operand words. -/
inductive Decoding (id ctl : Byte) (w1 w2 : Word) : Except DecodeError Instr → Prop
  | nonOe {i : Instr} (read : nonOeInstr id w1 = some i) : Decoding id ctl w1 w2 (checkOperands id i)
  | operandEncoded {i : Instr} (types : allowedTypes id ≠ []) (allowed : controlAllowed id ctl = true)
      (read : oeInstr id ctl w1 w2 = some i) : Decoding id ctl w1 w2 (checkOperands id i)
  | noRegister (types : allowedTypes id ≠ []) (allowed : controlAllowed id ctl = true) :
      Decoding id ctl w1 w2 (.error (.registerOperand id))
  | foreignControl (types : allowedTypes id ≠ []) (foreign : ¬ controlAllowed id ctl = true) :
      Decoding id ctl w1 w2 (.error (.controlByte id))
  | debug {i : Instr} (hid : id = 0xC0) (read : debugInstr ctl = some i) : Decoding id ctl w1 w2 (.ok i)
  | noFunction (hid : id = 0xC0) (unread : debugInstr ctl = none) : Decoding id ctl w1 w2 (.error .noOpcode)
  | reserved (reserved : ReservedId id) : Decoding id ctl w1 w2 (.error .noOpcode)

theorem decodeFields_decoding (id ctl : Byte) (w1 w2 : Word) :
    Decoding id ctl w1 w2 (decodeFields id ctl w1 w2) := by
  cases opcodeKind id with
  | nonOe nonOe =>
    obtain ⟨i, read⟩ := exists_nonOeInstr w1 nonOe
    rw [decodeFields_nonOe read]
    exact .nonOe read
  | operandEncoded types =>
    rw [decodeFields_operandEncoded types]
    split
    · next allowed =>
      cases read : oeInstr id ctl w1 w2 with
      | none => exact .noRegister types allowed
      | some i => exact .operandEncoded types allowed read
    · next foreign => exact .foreignControl types foreign
  | debug hid =>
    rw [hid, decodeFields_debug]
    cases read : debugInstr ctl with
    | none => exact .noFunction rfl read
    | some i => exact .debug rfl read
  | reserved reserved =>
    rw [decodeFields_reserved reserved]
    exact .reserved reserved

/-! ## Refused operands -/

/-- The operand checks report an operand of SRA, a port number of IN and OUT, or a register of an operand-encoded
instruction. -/
theorem checkOperands_error {e : DecodeError} (h : checkOperands id i = .error e) :
    (e = .sraOperand id ∧ opcodeId i = 0x03) ∨ (e = .portNumber id ∧ (opcodeId i = 0x30 ∨ opcodeId i = 0x31)) ∨
      (e = .registerOperand id ∧ allowedTypes (opcodeId i) ≠ []) := by
  unfold checkOperands at h
  split at h
  · cases h
  · next illFormed =>
    cases i with
    | sra =>
      cases h
      exact .inl ⟨rfl, rfl⟩
    | portIn | portOut =>
      dsimp only at h
      split at h <;> cases h
      · exact .inr (.inr ⟨rfl, List.cons_ne_nil _ _⟩)
      · exact .inr (.inl ⟨rfl, by simp [opcodeId]⟩)
    | mov | str | lod | add | sub | mul | div | and | or | xor | shl | shr | push | pop | wait =>
      cases h
      exact .inr (.inr ⟨rfl, List.cons_ne_nil _ _⟩)
    | _ => exact absurd rfl illFormed

theorem checkOperands_ne_noOpcode : checkOperands id i ≠ .error .noOpcode := fun h => by
  simpa using checkOperands_error h

theorem checkOperands_ne_controlByte {id' : Byte} : checkOperands id i ≠ .error (.controlByte id') := fun h => by
  simpa using checkOperands_error h

/-! ## Encoded instructions -/

theorem nonOeInstr_encoded (h : isNonOeId (opcodeId i) = true) :
    nonOeInstr (opcodeId i) (operandWords i).1 = some i := by
  cases i with
  | nop | lfm | wtm | sra | axy | sxy | mxy | dxy | equ | leq | jpz | jnz | jmp | clr | hlt | bsl | bsr | andLegacy
  | ora | xorLegacy | dwr | ilm | iwr | inc | dec | cmp | jeq | jne | jlt | jgt | jle | jge | vblank => rfl
  | _ => cases h

theorem debugInstr_encoded (h : opcodeId i = 0xC0) : debugInstr (controlOf i) = some i := by
  cases i with
  | dbgLgc | dbgMem | dbgInp => rfl
  | _ => cases h

theorem not_reserved_opcodeId (i : Instr) : ¬ ReservedId (opcodeId i) := by
  cases i <;> simp [opcodeId]

theorem srcType_mem (src : Src) : (srcType src, OpType.reg) ∈ [(OpType.reg, OpType.reg), (.imm, .reg)] := by
  cases src <;> simp [srcType]

theorem memType_mem (m : MemOp) : (memType m, OpType.reg) ∈ [(OpType.dir, OpType.reg), (.ind, .reg)] := by
  cases m <;> simp [memType]

theorem srcType_memType_mem (src : Src) (m : MemOp) :
    (srcType src, memType m) ∈ [(OpType.reg, OpType.dir), (.imm, .dir), (.reg, .ind), (.imm, .ind)] := by
  cases src <;> cases m <;> simp [srcType, memType]

/-- The canonical control byte of an operand-encoded instruction is made of types in its row of R115. -/
theorem controlAllowed_encoded (h : allowedTypes (opcodeId i) ≠ []) :
    controlAllowed (opcodeId i) (controlOf i) = true := by
  rw [controlAllowed_iff]
  cases i with
  | mov src | add src | sub src | mul src | div src | and src | or src | xor src | shl src | shr src | wait src =>
    exact ⟨srcType src, .reg, srcType_mem src, rfl⟩
  | str src dst => exact ⟨srcType src, memType dst, srcType_memType_mem src dst, rfl⟩
  | lod src => exact ⟨memType src, .reg, memType_mem src, rfl⟩
  | push | pop | portIn | portOut => exact ⟨_, _, List.mem_cons_self, rfl⟩
  | _ => exact absurd rfl h

theorem srcDst_encoded (make : Src → Reg → Instr) (src : Src) (dst : Reg) :
    srcDst make (controlByte 2 (srcType src) .reg) (srcWord src) (regId dst) = some (make src dst) :=
  srcDst_eq_some.mpr ⟨src, dst, srcOfWord_srcWord (fieldT1_controlByte ..), regOfId_regId dst, rfl⟩

theorem oeInstr_encoded (h : allowedTypes (opcodeId i) ≠ []) :
    oeInstr (opcodeId i) (controlOf i) (operandWords i).1 (operandWords i).2 = some i := by
  cases i with
  | mov | add | sub | mul | div | and | or | xor | shl | shr => exact srcDst_encoded _ _ _
  | str | lod | wait | push | pop | portIn | portOut =>
    simp [oeInstr, opcodeId, controlOf, operandWords, srcOfWord_srcWord]
  | _ => exact absurd rfl h

/-- The decoder reads a well-formed instruction back from its id, control byte and operand words. -/
theorem decodeFields_encoded (h : i.wf = true) :
    decodeFields (opcodeId i) (controlOf i) (operandWords i).1 (operandWords i).2 = .ok i := by
  have checked : checkOperands (opcodeId i) i = .ok i := checkOperands_ok.mpr ⟨h, rfl⟩
  cases opcodeKind (opcodeId i) with
  | nonOe nonOe => rw [decodeFields_nonOe (nonOeInstr_encoded nonOe), checked]
  | operandEncoded types =>
    rw [decodeFields_operandEncoded types, if_pos (controlAllowed_encoded types), oeInstr_encoded types,
      Option.elim_some, checked]
  | debug hid =>
    rw [hid, decodeFields_debug, debugInstr_encoded hid]
    rfl
  | reserved reserved => exact absurd reserved (not_reserved_opcodeId i)

end Sys2Proof.Laws
end

section
/-! Settles the tier 3 statement of spec/30_encoding.md, O1. -/

namespace Sys2Proof.Laws

variable {i : Instr}

/-- The canonical control byte of a non-operand-encoded instruction is 0 (R106). -/
theorem controlOf_nonOe (h : isNonOeId (opcodeId i) = true) : controlOf i = 0 := by
  cases i with
  | mov | str | lod | add | sub | mul | div | and | or | xor | shl | shr | push | pop | wait | portIn | portOut | dbgMem
  | dbgInp => cases h
  | _ => rfl

/-- Under either layout the decoder finds the id and the control byte that the encoder put into word 0. -/
theorem decodeWith_word0With (layout : Word0Layout) (i : Instr) (w1 w2 : Word) :
    decodeWith layout (word0With layout i) w1 w2 = decodeFields (opcodeId i) (controlOf i) w1 w2 := by
  cases layout with
  | fields => simp [decodeWith, word0With]
  | literalLegacy =>
    cases nonOe : isNonOeId (opcodeId i) with
    | true => simp [decodeWith, word0With, nonOe, controlOf_nonOe nonOe]
    | false =>
      have notZero : opcodeId i ≠ 0 := fun zero => by simp [zero, isNonOeId] at nonOe
      simp only [decodeWith, word0With, nonOe, fieldId_wordOfBytes, fieldCtl_wordOfBytes, if_neg notZero,
        Bool.false_eq_true, if_false]

/-- Settles O1. -/
theorem decodingReadsBackEveryEncoding : Obligations.DecodingReadsBackEveryEncoding :=
  fun layout i wf => (decodeWith_word0With layout i _ _).trans (decodeFields_encoded wf)

end Sys2Proof.Laws
end

section
/-! Settles the tier 2 statements of spec/30_encoding.md: what the decoder accepts (O2), ignores (O4) and refuses (O5,
O6). Each is read off `Decoding`, case by case. -/

namespace Sys2Proof.Laws

open Sys2Proof.Machine

variable {id ctl : Byte} {w1 w2 : Word} {r : Except DecodeError Instr} {i : Instr}

/-- An accepted instruction is well formed and has the id and, where they are not ignored, the control byte and the
operand words it was read from. -/
theorem Decoding.ok (d : Decoding id ctl w1 w2 r) (h : r = .ok i) :
    i.wf = true ∧ opcodeId i = id ∧ (isNonOeId id = false → controlOf i = ctl) ∧
      (isNonOeId id = false → fieldCnt ctl = 2 → id ≠ 0xC0 → operandWords i = (w1, w2)) := by
  cases d with
  | nonOe read =>
    obtain ⟨wf, rfl⟩ := checkOperands_ok.mp h
    simp [wf, opcodeId_of_nonOeInstr read, isNonOeId_of_nonOeInstr read]
  | operandEncoded _ allowed read =>
    obtain ⟨wf, rfl⟩ := checkOperands_ok.mp h
    obtain ⟨control, words⟩ := of_oeInstr allowed read
    refine ⟨wf, opcodeId_of_oeInstr read, fun _ => control, fun _ count _ => words ?_⟩
    obtain ⟨t1, t2, -, rfl⟩ := controlAllowed_iff.mp allowed
    exact (fieldCnt_controlByte ..).symm.trans count
  | debug hid read =>
    cases h
    obtain ⟨wf, opcode, control⟩ := of_debugInstr read
    exact ⟨wf, opcode.trans hid.symm, fun _ => control, fun _ _ other => absurd hid other⟩
  | noRegister | foreignControl | noFunction | reserved => cases h

/-- Settles O2. -/
theorem acceptedWordsAreTheirInstruction : Obligations.AcceptedWordsAreTheirInstruction := by
  intro w0 w1 w2 i h
  obtain ⟨wf, opcode, control, words⟩ := (decodeFields_decoding (fieldId w0) (fieldCtl w0) w1 w2).ok h
  refine ⟨wf, opcode, control, fun nonOe count other => ?_⟩
  have word0 : word0With .fields i = w0 := by
    rw [word0With, opcode, control nonOe]
    exact wordOfBytes_highByte_lowByte w0
  rw [encodeWith, word0, words nonOe count other]

/-- Settles O4. -/
theorem nonOperandEncodedIgnoreControl : Obligations.NonOperandEncodedIgnoreControl := by
  intro id ctl ctl' w1 w2 w2' nonOe
  obtain ⟨i, read⟩ := exists_nonOeInstr w1 nonOe
  have decoded : ∀ c w, decodeWith .fields (wordOfBytes id c) w1 w = checkOperands id i := fun c w => by
    simp [decodeWith, decodeFields_nonOe read]
  rw [decoded, decoded]
  exact ⟨rfl, _, rfl, checkOperands_ne_noOpcode⟩

/-- No instruction is found exactly for a reserved id or debug function. -/
theorem Decoding.noOpcode_iff (d : Decoding id ctl w1 w2 r) :
    r = .error .noOpcode ↔ ReservedId id ∨ (id = 0xC0 ∧ 2 < ctl.toNat) := by
  have named (types : allowedTypes id ≠ []) : ¬ (ReservedId id ∨ (id = 0xC0 ∧ 2 < ctl.toNat)) :=
    not_or.mpr ⟨not_reserved_of_types types, fun ⟨hid, _⟩ => ne_debug_of_types types hid⟩
  cases d with
  | nonOe read =>
    have nonOe := isNonOeId_of_nonOeInstr read
    refine iff_of_false checkOperands_ne_noOpcode ?_
    rintro (reserved | ⟨rfl, -⟩)
    · exact Bool.false_ne_true ((isNonOeId_of_reserved reserved).symm.trans nonOe)
    · cases nonOe
  | operandEncoded types => exact iff_of_false checkOperands_ne_noOpcode (named types)
  | noRegister types | foreignControl types => exact iff_of_false nofun (named types)
  | debug hid read =>
    subst hid
    simp [← debugInstr_eq_none, read]
  | noFunction hid unread => exact iff_of_true rfl (.inr ⟨hid, debugInstr_eq_none.mp unread⟩)
  | reserved reserved => exact iff_of_true rfl (.inl reserved)

/-- Settles O5. -/
theorem reservedOpcodesNameNothing : Obligations.ReservedOpcodesNameNothing := fun w0 w1 w2 =>
  (decodeFields_decoding (fieldId w0) (fieldCtl w0) w1 w2).noOpcode_iff.trans or_assoc

/-- A control byte is refused exactly where its id is operand-encoded and does not allow it. -/
theorem Decoding.controlByte_iff (d : Decoding id ctl w1 w2 r) :
    r = .error (.controlByte id) ↔ allowedTypes id ≠ [] ∧ ¬ controlAllowed id ctl = true := by
  cases d with
  | nonOe read =>
    refine iff_of_false checkOperands_ne_controlByte fun ⟨types, _⟩ => Bool.false_ne_true ?_
    exact (isNonOeId_of_types types).symm.trans (isNonOeId_of_nonOeInstr read)
  | operandEncoded _ allowed => exact iff_of_false checkOperands_ne_controlByte fun ⟨_, foreign⟩ => foreign allowed
  | noRegister _ allowed => exact iff_of_false nofun fun ⟨_, foreign⟩ => foreign allowed
  | foreignControl types foreign => exact iff_of_true rfl ⟨types, foreign⟩
  | debug hid | noFunction hid => exact iff_of_false nofun fun ⟨types, _⟩ => ne_debug_of_types types hid
  | reserved reserved => exact iff_of_false nofun fun ⟨types, _⟩ => not_reserved_of_types types reserved

/-- Settles O6. -/
theorem foreignControlBytesAreRefused : Obligations.ForeignControlBytesAreRefused := by
  intro w0 w1 w2
  rw [ne_eq, canonicalControls_eq_nil, ← controlAllowed_iff_mem]
  exact (decodeFields_decoding (fieldId w0) (fieldCtl w0) w1 w2).controlByte_iff

end Sys2Proof.Laws
end

section
/-! SUPPORT. Which instructions report which error of the decoder. -/

namespace Sys2Proof.Laws

/-- The errors of the decoder, each with the ids that report it. -/
inductive Reported : DecodeError → Prop
  | noOpcode : Reported .noOpcode
  | controlByte {id : Byte} (types : allowedTypes id ≠ []) : Reported (.controlByte id)
  | registerOperand {id : Byte} (types : allowedTypes id ≠ []) : Reported (.registerOperand id)
  | sraOperand : Reported (.sraOperand 0x03)
  | portNumber {id : Byte} (port : id = 0x30 ∨ id = 0x31) : Reported (.portNumber id)

theorem checkOperands_reported {i : Instr} {e : DecodeError} (h : checkOperands (opcodeId i) i = .error e) :
    Reported e := by
  obtain ⟨rfl, sra⟩ | ⟨rfl, port⟩ | ⟨rfl, types⟩ := checkOperands_error h
  · exact sra ▸ .sraOperand
  · exact .portNumber port
  · exact .registerOperand types

theorem Decoding.reported {id ctl : Byte} {w1 w2 : Word} {r : Except DecodeError Instr} {e : DecodeError}
    (d : Decoding id ctl w1 w2 r) (h : r = .error e) : Reported e := by
  cases d with
  | nonOe read =>
    obtain rfl := opcodeId_of_nonOeInstr read
    exact checkOperands_reported h
  | operandEncoded _ _ read =>
    obtain rfl := opcodeId_of_oeInstr read
    exact checkOperands_reported h
  | noRegister types =>
    cases h
    exact .registerOperand types
  | foreignControl types =>
    cases h
    exact .controlByte types
  | debug => cases h
  | noFunction | reserved =>
    cases h
    exact .noOpcode

theorem decode_reported {w0 w1 w2 : Word} {e : DecodeError} (h : decode w0 w1 w2 = .error e) : Reported e :=
  (decodeFields_decoding (fieldId w0) (fieldCtl w0) w1 w2).reported h

end Sys2Proof.Laws
end

section
/-! Settles the tier 1 statements of spec/30_encoding.md: word 0 (O3), sample words (O7), the order of the refusals (O9)
and LOD (O41). -/

namespace Sys2Proof.Machine

open Sys2Proof.Laws

variable {s : State}

/-- Settles O3. -/
theorem wordZeroIsMadeOfItsFields : Obligations.WordZeroIsMadeOfItsFields := by
  intro w0
  simp only [fieldId, fieldCtl, highByte, lowByte, fieldRsv, fieldT2, fieldT1, fieldCnt, BitVec.extractLsb'_toNat,
    Nat.shiftRight_eq_div_pow]
  omega

/-- Settles O7. -/
theorem sampleWordsDecode : Obligations.SampleWordsDecode :=
  ⟨rfl, rfl, rfl, rfl, rfl, rfl, rfl, rfl, rfl, rfl, rfl⟩

/-! ## Failed decodings -/

/-- Of the operand-encoded instructions IN and OUT alone are tied to a mode (R120). -/
theorem availabilityOf_operandEncoded {id : Byte} (types : allowedTypes id ≠ []) :
    availabilityOf id = if id = 0x30 ∨ id = 0x31 then .extension else .both := by
  revert id
  decide

theorem State.modeRefusal_operandEncoded {id : Byte} (types : allowedTypes id ≠ []) :
    s.modeRefusal id = if (id = 0x30 ∨ id = 0x31) ∧ s.em ≠ 1 then some .extensionOnly else none := by
  rw [State.modeRefusal, availabilityOf_operandEncoded types]
  by_cases port : id = 0x30 ∨ id = 0x31
  · simp only [port, if_true, true_and, ite_not]
  · simp only [port, if_false, false_and]

theorem step_undecoded {e : DecodeError} (hh : s.halted = false) (hs : s.stall = .running)
    (fetched : s.fetched = .error e) : step s = .refused (s.decodeRefusal e) := by
  simp [step, hh, hs, State.runCycle, fetched]

/-- Settles O9. -/
theorem failedDecodingIsRefusedInOrder : Obligations.FailedDecodingIsRefusedInOrder := by
  intro s e hh hs hdecode
  have fetched : s.fetched = .error e := by simpa [State.fetched, State.fetchWord] using hdecode
  rw [step_undecoded hh hs fetched]
  congr 1
  cases decode_reported hdecode with
  | noOpcode => rfl
  | controlByte types | registerOperand types =>
    rw [State.decodeRefusal, State.modeRefusal_operandEncoded types]
    exact apply_ite (Option.getD · _) _ _ _
  | sraOperand => exact apply_ite (Option.getD · _) _ _ _
  | @portNumber id port =>
    have types : allowedTypes id ≠ [] := by obtain rfl | rfl := port <;> decide
    rw [State.decodeRefusal, State.modeRefusal_operandEncoded types]
    simp only [port, true_and, ite_not]
    exact apply_ite (Option.getD · _) _ _ _

/-! ## LOD -/

theorem exec_lod {d : Reg} (src : MemOp) (dest : isGeneral d = true) :
    exec (.lod src d) s = (s.writeReg d (s.memRead (memAddress s src))).done := by
  have unfolded : exec (.lod src d) s = execLod src d s := rfl
  rw [unfolded, execLod, requireReg, if_pos dest, State.withAddress_memAddress]

/-- Settles O41. -/
theorem lodLoadsOneWord : Obligations.LodLoadsOneWord := fun _ src => ⟨exec_lod src rfl, exec_lod src rfl⟩

end Sys2Proof.Machine
end

section
/-! SUPPORT. The rules of the legacy family (spec/40_legacy_v1_0_to_v1_2.md): the mode, the two ways a legacy instruction
ends, and the bits the flag computations write. -/

namespace Sys2Proof.Machine

variable {s : State}

/-! ## Modes and ends -/

theorem advancesTo_next (s : State) : AdvancesTo s (s.pc + 3) := fun _ => rfl

/-- A legacy instruction is refused in extension mode. -/
theorem exec_refused_of_extension {i : Instr} (legacy : availabilityOf (opcodeId i) = .legacy) (extension : s.em = 1) :
    ∃ r, exec i s = .refused r :=
  ⟨_, (instructionsOutsideTheirModeAreRefused i s).1 legacy (by simp [extension])⟩

/-- In legacy mode a write of the active register completes. -/
theorem State.toActive_legacy (h : s.em = 0) (v : Word) :
    s.toActive v = .next { s.withActive v with pc := s.pc + 3 } := by
  have following : (s.setActive v).nextPc = s.pc + 3 := by rw [State.nextPc, State.setActive_pc]
  rw [State.toActive, State.legacyOnly_legacy h, State.done, State.advance, following]
  rfl

/-- In legacy mode a write of STATUS completes. -/
theorem State.toStatus_legacy (h : s.em = 0) (st : Byte) :
    s.toStatus st = .next { s with status := st, pc := s.pc + 3 } :=
  State.legacyOnly_legacy h

/-! ## The active register -/

theorem State.active_eq_x (h : s.status.getLsbD 4 = false) : s.active = s.x := by
  have x : s.yActive = false := h
  rw [State.active, x]
  rfl

theorem State.active_eq_y (h : s.status.getLsbD 4 = true) : s.active = s.y := by
  have y : s.yActive = true := h
  rw [State.active, y]
  rfl

/-- A commutative operation combines X and Y the same whichever of them is active. -/
theorem State.active_inactive_comm (s : State) (f : Word → Word → Word) (comm : ∀ a b, f a b = f b a) :
    f s.active s.inactive = f s.x s.y := by
  unfold State.active State.inactive
  cases s.yActive with
  | false => rfl
  | true => exact comm s.y s.x

/-! ## STATUS bits -/

theorem onlyBit_withBit (st : Byte) {i : Nat} (b : Bool) (hi : i < 8) : OnlyBit (withBit st i b) st i b :=
  ⟨(getLsbD_withBit st i i b hi).trans (if_pos rfl), fun j hj => (getLsbD_withBit st i j b hi).trans (if_neg hj)⟩

/-- The order of X and Y, as bits 1, 2 and 3 say it. -/
theorem orderStatus_bits (x y : Word) (st : Byte) :
    (orderStatus x y st).getLsbD 1 = decide (x.toNat < y.toNat) ∧
      (orderStatus x y st).getLsbD 2 = decide (y.toNat < x.toNat) ∧
      (orderStatus x y st).getLsbD 3 = decide (x ≠ y) := by
  simp [-BitVec.getLsbD_eq_getElem, orderStatus, getLsbD_withBit, bitLT, bitGT, bitNE, BitVec.ult, bne, beq_eq_decide]

/-- A write of bit 0 leaves the order of X and Y in bits 1 to 3 and the bits above them. -/
theorem withBitEQ_orderStatus_bits (x y : Word) (st : Byte) (b : Bool) :
    let new := withBit (orderStatus x y st) bitEQ b
    new.getLsbD 0 = b ∧ new.getLsbD 1 = decide (x.toNat < y.toNat) ∧ new.getLsbD 2 = decide (y.toNat < x.toNat) ∧
      new.getLsbD 3 = decide (x ≠ y) ∧ ∀ j, 4 ≤ j → new.getLsbD j = st.getLsbD j := by
  obtain ⟨lt, gt, ne⟩ := orderStatus_bits x y st
  have bit := fun j => getLsbD_withBit (orderStatus x y st) bitEQ j b (by decide)
  refine ⟨bit 0, (bit 1).trans lt, (bit 2).trans gt, (bit 3).trans ne, fun j high => ?_⟩
  have other : j ≠ bitEQ := by
    unfold bitEQ
    omega
  rw [bit, if_neg other, getLsbD_orderStatus high]

/-! ## Results as natural numbers -/

theorem sub_eq_ofNat (a b : Word) : a - b = BitVec.ofNat 16 (a.toNat + 65536 - b.toNat) := by
  bv_omega

theorem shiftLeft_one_eq_ofNat (a : Word) : a <<< 1 = BitVec.ofNat 16 (a.toNat * 2) := by
  apply BitVec.eq_of_toNat_eq
  simp [Nat.shiftLeft_eq]

theorem shiftRight_one_eq_ofNat (a : Word) : a >>> 1 = BitVec.ofNat 16 (a.toNat / 2) := by
  apply BitVec.eq_of_toNat_eq
  simp [Nat.shiftRight_eq_div_pow]
  omega

end Sys2Proof.Machine
end

section
/-! Settles the statements of spec/40_legacy_v1_0_to_v1_2.md (O23, O24, O26 to O33, O35 to O37). -/

namespace Sys2Proof.Machine

variable {s : State}

/-! ## Straight-line and control flow -/

/-- Settles O23. -/
theorem nopOnlyAdvances : Obligations.NopOnlyAdvances := fun s => ⟨_, advancesTo_next s, rfl⟩

/-- Settles O31. -/
theorem jpzAndJnzTestBitZero : Obligations.JpzAndJnzTestBitZero := by
  intro s a legacy
  have jpz : exec (.jpz a) s = s.jumpIf (!s.status.getLsbD 0) a := State.legacyOnly_legacy legacy
  have jnz : exec (.jnz a) s = s.jumpIf (s.status.getLsbD 0) a := State.legacyOnly_legacy legacy
  rw [jpz, jnz]
  cases s.status.getLsbD 0 <;> exact ⟨rfl, rfl⟩

/-- Settles O32. -/
theorem jmpJumps : Obligations.JmpJumps := fun _ _ => rfl

/-! ## The active register -/

/-- Settles O24. -/
theorem lfmAndDwrWriteTheActiveRegister : Obligations.LfmAndDwrWriteTheActiveRegister := by
  intro s v
  constructor
  · intro legacy
    exact ⟨_, advancesTo_next s, State.toActive_legacy legacy _, State.toActive_legacy legacy _⟩
  · intro extension
    exact ⟨exec_refused_of_extension rfl extension, exec_refused_of_extension rfl extension⟩

/-- Settles O27: the results of `BitVec` are the natural numbers' modulo 65536. -/
theorem legacyArithmeticWraps : Obligations.LegacyArithmeticWraps := by
  intro s legacy
  have sxy : exec .sxy s = s.toActive (s.y - s.x) := rfl
  have dec : exec .dec s = s.toActive (s.active - 1) := rfl
  refine ⟨?_, ?_, ?_, ?_, ?_⟩
  · exact State.toActive_legacy legacy (s.x + s.y)
  · rw [sxy, sub_eq_ofNat, State.toActive_legacy legacy]
  · exact State.toActive_legacy legacy (s.x * s.y)
  · exact State.toActive_legacy legacy (s.active + 1)
  · rw [dec, sub_eq_ofNat, State.toActive_legacy legacy]
    rfl

/-- Settles O35. -/
theorem bslAndBsrShiftByOne : Obligations.BslAndBsrShiftByOne := by
  intro s legacy
  rw [← shiftLeft_one_eq_ofNat, ← shiftRight_one_eq_ofNat]
  exact ⟨State.toActive_legacy legacy _, State.toActive_legacy legacy _⟩

/-- Settles O36. -/
theorem legacyLogicCombinesXAndY : Obligations.LegacyLogicCombinesXAndY := by
  intro s
  constructor
  · intro legacy
    rw [← s.active_inactive_comm (· &&& ·) BitVec.and_comm, ← s.active_inactive_comm (· ||| ·) BitVec.or_comm,
      ← s.active_inactive_comm (· ^^^ ·) BitVec.xor_comm]
    exact ⟨_, advancesTo_next s, State.toActive_legacy legacy _, State.toActive_legacy legacy _,
      State.toActive_legacy legacy _⟩
  · rintro extension i (rfl | rfl | rfl) <;> exact exec_refused_of_extension rfl extension

/-- Settles O37. -/
theorem ilmLoadsThroughTheActiveRegister : Obligations.IlmLoadsThroughTheActiveRegister := by
  intro s legacy
  have ilm : exec .ilm s = .next { s.withActive (s.memRead s.active) with pc := s.pc + 3 } :=
    State.toActive_legacy legacy _
  rw [ilm]
  constructor
  · intro selectsX
    rw [State.active_eq_x selectsX, State.withActive, selectsX]
    rfl
  · intro selectsY
    rw [State.active_eq_y selectsY, State.withActive, selectsY]
    rfl

/-! ## Division -/

/-- In legacy mode DXY writes the active register and the division flag. -/
theorem exec_dxy (legacy : s.em = 0) :
    exec .dxy s = .next { s.withActive (if s.y = 0 then 0 else s.x / s.y) with
      status := divStatus s.y s.status, pc := s.pc + 3 } := by
  have unfolded : exec .dxy s = _ := State.legacyOnly_legacy legacy
  rw [unfolded, State.done, State.advance, State.nextPc, State.setStatus_pc, State.setActive_pc]
  rfl

/-- Settles O28. -/
theorem dxyDividesAndFlagsZero : Obligations.DxyDividesAndFlagsZero := by
  intro s legacy
  rw [exec_dxy legacy]
  constructor
  · intro nonzero
    rw [if_neg nonzero, divStatus, if_neg nonzero, ← State.setActive_status s (s.x / s.y), BitVec.udiv_def]
    rfl
  · intro zero
    refine ⟨withBit s.status bitDZ true, ?_, onlyBit_withBit _ _ (by decide)⟩
    rw [if_pos zero, divStatus, if_pos zero]

/-! ## STATUS -/

/-- Settles O26: the operands up to 1 are the two that SRA takes. -/
theorem sraSelectsTheActiveRegister : Obligations.SraSelectsTheActiveRegister := by
  intro s v legacy
  have unfolded : exec (.sra v) s = _ := State.legacyOnly_legacy legacy
  rw [unfolded]
  constructor
  · intro selects
    obtain rfl | rfl : v = 0 ∨ v = 1 := by bv_omega
    all_goals exact ⟨_, rfl, onlyBit_withBit _ _ (by decide)⟩
  · intro above
    have not_x : v ≠ 0 := by bv_omega
    have not_y : v ≠ 1 := by bv_omega
    rw [if_neg not_x, if_neg not_y]

/-- Settles O29. -/
theorem equWritesBitZero : Obligations.EquWritesBitZero := by
  intro s
  constructor
  · intro legacy
    refine ⟨_, _, advancesTo_next s, State.toStatus_legacy legacy _, ?_⟩
    rw [← beq_eq_decide]
    exact onlyBit_withBit _ _ (by decide)
  · exact exec_refused_of_extension rfl

/-- Settles O30: LEQ and CMP differ in bit 0 alone. -/
theorem leqAndCmpCompareUnsigned : Obligations.LeqAndCmpCompareUnsigned := by
  intro s
  constructor
  · refine ⟨cmpStatus s.x s.y s.status, rfl, ?_⟩
    rw [← beq_eq_decide]
    exact withBitEQ_orderStatus_bits s.x s.y s.status (s.x == s.y)
  · intro legacy
    exact ⟨_, State.toStatus_legacy legacy (leqStatus s.x s.y s.status),
      withBitEQ_orderStatus_bits s.x s.y s.status (s.x.ult s.y)⟩

/-- Settles O33. -/
theorem clrClearsStatus : Obligations.ClrClearsStatus := by
  intro s
  constructor
  · intro legacy
    exact ⟨_, advancesTo_next s, State.toStatus_legacy legacy 0⟩
  · exact exec_refused_of_extension rfl

end Sys2Proof.Machine
end

section
/-! Settles the jump statements of spec/42_ecji.md (O42, O43). -/

namespace Sys2Proof.Machine

/-! ## What a conditional jump answers -/

/-- A conditional jump completes in either mode and writes only pc. -/
theorem State.jumpIf_eq (s : State) (taken : Bool) (target : Word) :
    s.jumpIf taken target = .next { s with pc := if taken = true then target else s.pc + 3 } :=
  State.jumpIf_next.mpr rfl

/-- A conditional jump on two bits is taken when one of them is 1. -/
theorem State.jumpIf_or_eq (s : State) (b c : Bool) (target : Word) :
    s.jumpIf (b || c) target = .next { s with pc := if b = true ∨ c = true then target else s.pc + 3 } := by
  rw [State.jumpIf_eq]
  simp only [Bool.or_eq_true]

/-! ## The jumps of V1.5 -/

/-- Settles O42: each jump is a conditional jump on the one bit it reads, JNE on bit 3 (R202). -/
theorem ecjiJumpsTestTheirBit : Obligations.EcjiJumpsTestTheirBit := by
  intro s a
  have jeq : exec (.jeq a) s = s.jumpIf (s.status.getLsbD 0) a := rfl
  have jne : exec (.jne a) s = s.jumpIf (s.status.getLsbD 3) a := rfl
  have jlt : exec (.jlt a) s = s.jumpIf (s.status.getLsbD 1) a := rfl
  have jgt : exec (.jgt a) s = s.jumpIf (s.status.getLsbD 2) a := rfl
  rw [jeq, jne, jlt, jgt]
  exact ⟨_, advancesTo_next s, s.jumpIf_eq _ a, s.jumpIf_eq _ a, s.jumpIf_eq _ a, s.jumpIf_eq _ a⟩

/-- Settles O43: bit 0 is the second bit of both (decision D35). -/
theorem jleAndJgeTestTwoBits : Obligations.JleAndJgeTestTwoBits := by
  intro s a
  have jle : exec (.jle a) s = s.jumpIf (s.status.getLsbD 1 || s.status.getLsbD 0) a := rfl
  have jge : exec (.jge a) s = s.jumpIf (s.status.getLsbD 2 || s.status.getLsbD 0) a := rfl
  rw [jle, jge]
  exact ⟨s.jumpIf_or_eq _ _ a, s.jumpIf_or_eq _ _ a⟩

end Sys2Proof.Machine
end

section
/-! Settles the statements of spec/43_moi_alu.md (O44 to O47). -/

namespace Sys2Proof.Machine

variable {s : State} {src : Src} {d : Reg} {v : Word}

/-! ## Operands and result -/

/-- A general register reads as its value. -/
theorem State.readReg_general (dest : d = .x ∨ d = .y) : s.readReg d = s.general d := by
  obtain rfl | rfl := dest <;> rfl

/-- A write of a general register by name. -/
theorem State.writeReg_withGeneral (dest : d = .x ∨ d = .y) (w : Word) : s.writeReg d w = s.withGeneral d w := by
  obtain rfl | rfl := dest <;> rfl

@[simp] theorem State.withGeneral_pc (s : State) (d : Reg) (w : Word) : (s.withGeneral d w).pc = s.pc := by
  unfold State.withGeneral; split <;> rfl
@[simp] theorem State.withGeneral_status (s : State) (d : Reg) (w : Word) : (s.withGeneral d w).status = s.status := by
  unfold State.withGeneral; split <;> rfl

/-- An ALU instruction whose operands are in their sets goes on with the two values. -/
theorem State.withAlu_moi (k : Word → Word → Result) (value : moiValue s src = some v) (dest : d = .x ∨ d = .y) :
    s.withAlu src d k = k (s.general d) v := by
  rw [State.withAlu, State.withSource_moi _ value, requireReg, if_pos (isGeneral_iff.mpr dest),
    State.readReg_general dest]

/-- An ALU instruction writes its result to DST, and nothing else but pc. -/
theorem State.alu_eq (f : Word → Word → Word) (value : moiValue s src = some v) (dest : d = .x ∨ d = .y) :
    s.alu src d f = .next { s.withGeneral d (f (s.general d) v) with pc := s.pc + 3 } := by
  rw [State.alu, State.withAlu_moi _ value dest, State.writeReg_withGeneral dest, State.done, State.advance,
    State.nextPc, State.withGeneral_pc]
  rfl

/-- DIV writes DST and the division flag. -/
theorem exec_div (value : moiValue s src = some v) (dest : d = .x ∨ d = .y) :
    exec (.div src d) s = .next { s.withGeneral d (if v = 0 then 0 else s.general d / v) with
      status := divStatus v s.status, pc := s.pc + 3 } := by
  have unfolded : exec (.div src d) s = execDiv src d s := rfl
  rw [unfolded, execDiv, State.withAlu_moi _ value dest, State.writeReg_withGeneral dest, State.done, State.advance,
    State.nextPc, State.setStatus_pc, State.withGeneral_pc]
  rfl

/-! ## Results as natural numbers -/

theorem mul_eq_ofNat (a b : Word) : a * b = BitVec.ofNat 16 (a.toNat * b.toNat) := rfl

theorem shiftLeft_eq_ofNat (a : Word) (n : Nat) : a <<< n = BitVec.ofNat 16 (a.toNat * 2 ^ n) := by
  apply BitVec.eq_of_toNat_eq
  rw [BitVec.toNat_shiftLeft, Nat.shiftLeft_eq, BitVec.toNat_ofNat]

/-- The right shift is logical: a quotient of the unsigned value. -/
theorem shiftRight_eq_ofNat (a : Word) (n : Nat) : a >>> n = BitVec.ofNat 16 (a.toNat / 2 ^ n) := by
  apply BitVec.eq_of_toNat_eq
  have small : a.toNat / 2 ^ n < 2 ^ 16 := (Nat.div_le_self _ _).trans_lt a.isLt
  rw [BitVec.toNat_ushiftRight, Nat.shiftRight_eq_div_pow, BitVec.toNat_ofNat, Nat.mod_eq_of_lt small]

/-- SHL by at most 15. -/
theorem shiftLeft_of_le (a : Word) (now : Nat) (h : v.toNat ≤ 15) :
    shiftLeft a v now = BitVec.ofNat 16 (a.toNat * 2 ^ v.toNat) := by
  rw [shiftLeft, if_pos h, shiftLeft_eq_ofNat]

/-- SHR by at most 15. -/
theorem shiftRight_of_le (a : Word) (now : Nat) (h : v.toNat ≤ 15) :
    shiftRight a v now = BitVec.ofNat 16 (a.toNat / 2 ^ v.toNat) := by
  rw [shiftRight, if_pos h, shiftRight_eq_ofNat]

/-! ## The statements -/

/-- Settles O44: the results of `BitVec` are the natural numbers' modulo 65536. -/
theorem aluWritesTheResult : Obligations.AluWritesTheResult := by
  intro s src d v value dest
  rw [← BitVec.add_def, ← sub_eq_ofNat, ← mul_eq_ofNat]
  exact ⟨State.alu_eq (· + ·) value dest, State.alu_eq (· - ·) value dest, State.alu_eq (· * ·) value dest,
    State.alu_eq (· &&& ·) value dest, State.alu_eq (· ||| ·) value dest, State.alu_eq (· ^^^ ·) value dest⟩

/-- Settles O45. -/
theorem divDividesAndFlagsZero : Obligations.DivDividesAndFlagsZero := by
  intro s src d v value dest
  rw [exec_div value dest]
  constructor
  · intro nonzero
    rw [if_neg nonzero, divStatus, if_neg nonzero, ← State.withGeneral_status s d (s.general d / v), BitVec.udiv_def]
  · intro zero
    refine ⟨withBit s.status bitDZ true, ?_, onlyBit_withBit _ _ (by decide)⟩
    rw [if_pos zero, divStatus, if_pos zero]

/-- Settles O46. -/
theorem shiftsBelowSixteen : Obligations.ShiftsBelowSixteen := by
  intro s src d v value dest small
  rw [← shiftLeft_of_le _ s.now small, ← shiftRight_of_le _ s.now small]
  exact ⟨State.alu_eq (shiftLeft · · s.now) value dest, State.alu_eq (shiftRight · · s.now) value dest⟩

/-- Settles O47: an ALU instruction completes whatever word its operation gives, here the free value `SHIFT_GE16`. -/
theorem shiftsBySixteenOrMoreComplete : Obligations.ShiftsBySixteenOrMoreComplete := by
  intro s src d v value dest _
  exact ⟨_, _, State.alu_eq (shiftLeft · · s.now) value dest, State.alu_eq (shiftRight · · s.now) value dest⟩

end Sys2Proof.Machine
end

section
/-! Settles the statement of spec/44_stack.md about PUSH followed by POP (O51). -/

namespace Sys2Proof.Machine

/-- Settles O51, by what the PUSH stores and leaves alone (O49) and what the POP then loads (O50). -/
theorem pushThenPopCopies : Obligations.PushThenPopCopies := by
  intro s outside
  obtain ⟨storing, -⟩ := pushStoresBelowSp s .x s.x rfl
  obtain ⟨t, push, stored, kept, frame⟩ := storing outside
  obtain ⟨-, pop, -⟩ := popLoadsAtSp t
  have sp : t.sp = s.sp - 1 := by rw [frame]
  have pc : t.pc = s.pc + 3 := by rw [frame]
  have x : t.x = s.x := by rw [frame]
  have status : t.status = s.status := by rw [frame]
  have em : t.em = s.em := by rw [frame]
  have loaded : t.memRead t.sp = s.x := by rw [sp, stored]
  have restored : t.sp + 1 = s.sp := by rw [sp, BitVec.sub_add_cancel]
  have twice : t.pc + 3 = s.pc + 6 := by rw [pc, BitVec.add_assoc]; rfl
  exact ⟨t, _, push, pop, loaded, x, restored, stored, kept, status, em, twice⟩

end Sys2Proof.Machine
end

section
/-! Settles the statement of spec/45_timing.md about how WAIT and VBLANK begin (O52). -/

namespace Sys2Proof.Machine

variable {s : State} {src : Src} {n : Word}

/-- A WAIT of a readable source completes if it asks for no cycles, and else captures CYC and stalls (R250). -/
theorem exec_wait (value : moiValue s src = some n) :
    exec (.wait src) s = if n = 0 then s.done else .next (s.setStall (.waiting s.cyc n)) := by
  have unfolded : exec (.wait src) s = execWait src s := rfl
  rw [unfolded, execWait, State.withSource_moi _ value]

/-- Settles O52: the branch of WAIT is the one its count selects, VBLANK has none. -/
theorem waitAndVblankStall : Obligations.WaitAndVblankStall := by
  intro s src n value
  have vblank : exec .vblank s = .next (s.setStall .vblankWait) := rfl
  rw [exec_wait value]
  exact ⟨fun zero => if_pos zero, fun positive => if_neg positive, vblank⟩

end Sys2Proof.Machine
end

section
/-! Settles the statements of spec/47_edo.md (O57, O58). -/

namespace Sys2Proof.Machine

/-! ## The table of console codes -/

/-- The table of R273, a row per code or range of codes. -/
inductive ConsoleRow : Word → Char → Prop
  | hash : ConsoleRow 0 '#'
  | letter (n : Nat) (h : n < 26) : ConsoleRow (BitVec.ofNat 16 (1 + n)) (Char.ofNat (65 + n))
  | hyphen : ConsoleRow 27 '-'
  | digit (n : Nat) (h : n < 10) : ConsoleRow (BitVec.ofNat 16 (28 + n)) (Char.ofNat (48 + n))
  | newline : ConsoleRow 38 '\n'
  | space : ConsoleRow 39 ' '

theorem toNat_ofNat_ascii {n : Nat} (h : n < 128) : (Char.ofNat n).toNat = n := by
  rw [Char.toNat_ofNat, if_pos (.inl (by omega))]

/-- An ASCII character from `base` on is not one before `base`: no letter and no digit is a sign that `codeOf` tests
first. -/
theorem ofNat_add_ne {d : Char} {base n : Nat} (before : d.toNat < base) (h : base + n < 128) :
    Char.ofNat (base + n) ≠ d := by
  rintro rfl
  rw [toNat_ofNat_ascii h] at before
  omega

namespace ConsoleRow

variable {code : Word} {c : Char}

/-- A code of the table prints as its character. -/
theorem charOf_eq (row : ConsoleRow code c) : charOf code = c := by
  cases row with
  | hash | hyphen | newline | space => rfl
  | letter n h =>
    have value : (BitVec.ofNat 16 (1 + n)).toNat = 1 + n := Nat.mod_eq_of_lt (by omega)
    have place : 64 + (1 + n) = 65 + n := by omega
    rw [charOf, value, if_neg (by omega), if_pos (by omega), place]
  | digit n h =>
    have value : (BitVec.ofNat 16 (28 + n)).toNat = 28 + n := Nat.mod_eq_of_lt (by omega)
    have place : 20 + (28 + n) = 48 + n := by omega
    rw [charOf, value, if_neg (by omega), if_neg (by omega), if_neg (by omega), if_pos (by omega), place]

/-- A character of the table is read back as its code. -/
theorem codeOf_eq (row : ConsoleRow code c) : codeOf c = code := by
  cases row with
  | hash | hyphen | newline | space => rfl
  | letter n h =>
    have place : 65 + n - 64 = 1 + n := by omega
    rw [codeOf, toNat_ofNat_ascii (by omega), if_neg (ofNat_add_ne (by decide) (by omega)), if_pos (by omega), place]
  | digit n h =>
    have place : 48 + n - 20 = 28 + n := by omega
    rw [codeOf, toNat_ofNat_ascii (by omega), if_neg (ofNat_add_ne (by decide) (by omega)), if_neg (by omega),
      if_neg (ofNat_add_ne (by decide) (by omega)), if_pos (by omega), place]

theorem toNat_lt (row : ConsoleRow code c) : code.toNat < 40 := by
  cases row with
  | hash | hyphen | newline | space => decide
  | letter n h | digit n h =>
    rw [BitVec.toNat_ofNat]
    omega

end ConsoleRow

/-- Every code below 40 has a row. -/
theorem exists_consoleRow {code : Word} (h : code.toNat < 40) : ∃ c, ConsoleRow code c := by
  have value : BitVec.ofNat 16 code.toNat = code := BitVec.ofNat_toNat 16 code
  rw [← value]
  generalize code.toNat = n at h
  obtain rfl | letter | rfl | digit | rfl | rfl :
    n = 0 ∨ (1 ≤ n ∧ n ≤ 26) ∨ n = 27 ∨ (28 ≤ n ∧ n ≤ 37) ∨ n = 38 ∨ n = 39 := by omega
  · exact ⟨_, .hash⟩
  · obtain ⟨k, rfl⟩ := Nat.exists_eq_add_of_le letter.1
    exact ⟨_, .letter k (by omega)⟩
  · exact ⟨_, .hyphen⟩
  · obtain ⟨k, rfl⟩ := Nat.exists_eq_add_of_le digit.1
    exact ⟨_, .digit k (by omega)⟩
  · exact ⟨_, .newline⟩
  · exact ⟨_, .space⟩

/-- A code outside the table prints as `?`. -/
theorem charOf_of_le {code : Word} (h : 40 ≤ code.toNat) : charOf code = '?' := by
  rw [charOf, if_neg (by omega), if_neg (by omega), if_neg (by omega), if_neg (by omega), if_neg (by omega),
    if_neg (by omega)]

/-- A character that is not read as 40 has a row. -/
theorem codeOf_eq_forty_or_row (c : Char) : codeOf c = 40 ∨ ∃ code, ConsoleRow code c := by
  have char : Char.ofNat c.toNat = c := Char.ofNat_toNat c
  rw [codeOf]
  split_ifs with hash letter hyphen digit newline space
  · exact .inr ⟨0, hash ▸ .hash⟩
  · obtain ⟨k, place⟩ := Nat.exists_eq_add_of_le letter.1
    rw [← char, place]
    exact .inr ⟨_, .letter k (by omega)⟩
  · exact .inr ⟨27, hyphen ▸ .hyphen⟩
  · obtain ⟨k, place⟩ := Nat.exists_eq_add_of_le digit.1
    rw [← char, place]
    exact .inr ⟨_, .digit k (by omega)⟩
  · exact .inr ⟨38, newline ▸ .newline⟩
  · exact .inr ⟨39, space ▸ .space⟩
  · exact .inl rfl

/-- Settles O58: the two directions agree with the table row by row. -/
theorem debugCharactersFollowTheTable : Obligations.DebugCharactersFollowTheTable := by
  refine ⟨ConsoleRow.hash.charOf_eq, ConsoleRow.hyphen.charOf_eq, ConsoleRow.newline.charOf_eq,
    ConsoleRow.space.charOf_eq, fun n h => (ConsoleRow.letter n h).charOf_eq,
    fun n h => (ConsoleRow.digit n h).charOf_eq, fun _ => charOf_of_le, fun code h => ?_, fun c other => ?_⟩
  · obtain ⟨c, row⟩ := exists_consoleRow h
    rw [row.charOf_eq, row.codeOf_eq]
  · obtain unknown | ⟨code, row⟩ := codeOf_eq_forty_or_row c
    · exact unknown
    · exact absurd row.charOf_eq (other code row.toNat_lt)

/-! ## What the debug opcodes do -/

variable {s : State} {v : Word}

@[simp] theorem State.withActive_pc (s : State) (v : Word) : (s.withActive v).pc = s.pc := State.setActive_pc s v
@[simp] theorem State.withActive_outputs (s : State) (v : Word) : (s.withActive v).outputs = s.outputs :=
  State.setActive_outputs s v

/-- An event on the console and a write of the active register do not touch each other. -/
theorem State.withActive_emit (s : State) (e : ConsoleEvent) (v : Word) :
    (s.emit e).withActive v = (s.withActive v).emit e := by
  have selected : (s.emit e).status = s.status := rfl
  rw [State.withActive, State.withActive, selected]
  cases s.status.getLsbD 4 <;> rfl

/-- The answer is recorded and stands in the active register (R272, decision D26). -/
theorem State.takeAnswer_eq (s : State) (v : Word) : s.takeAnswer v = (s.withActive v).emit (.answered v) :=
  s.withActive_emit (.answered v) v

theorem State.promptUser_answered (typed : s.inputs.typed = some v) :
    s.promptUser = (((s.withActive v).emit .prompted).emit (.answered v)).advance := by
  rw [State.promptUser, typed]
  simp only [State.takeAnswer_eq, State.withActive_emit]

theorem State.promptUser_unanswered (typed : s.inputs.typed = none) :
    s.promptUser = (s.emit .prompted).setStall .prompting := by
  rw [State.promptUser, typed]

theorem State.promptCycle_answered (typed : s.inputs.typed = some v) :
    s.promptCycle = ((s.withActive v).emit (.answered v)).resume.elapse s.instrCycles := by
  rw [State.promptCycle, typed]
  simp only [State.takeAnswer_eq]

theorem State.promptCycle_unanswered (typed : s.inputs.typed = none) : s.promptCycle = s.elapse 1 := by
  rw [State.promptCycle, typed]

theorem step_prompting (hh : s.halted = false) (hs : s.stall = .prompting) : step s = .next s.promptCycle := by
  simp [step, hh, hs]

/-- Settles O57: only an answer writes a register besides pc, the active one (decision D26). -/
theorem debugOpcodesUseTheConsole : Obligations.DebugOpcodesUseTheConsole := by
  intro s
  constructor
  · intro legacy
    have inp : exec .dbgInp s = .next s.promptUser := State.legacyOnly_legacy legacy
    refine ⟨State.legacyOnly_legacy legacy, ⟨_, State.legacyOnly_legacy legacy⟩, fun v typed => ?_, fun typed => ?_⟩
    · rw [inp, State.promptUser_answered typed, ← s.withActive_pc v, ← s.withActive_outputs v, List.append_cons]
      rfl
    · rw [inp, State.promptUser_unanswered typed]
      rfl
  · intro running prompting
    rw [step_prompting running prompting]
    refine ⟨fun typed => ?_, fun v typed => ?_⟩
    · rw [State.promptCycle_unanswered typed]
    · rw [State.promptCycle_answered typed, ← s.withActive_pc v, ← s.withActive_outputs v]
      rfl

end Sys2Proof.Machine
end

section
/-! Settles the statement of spec/60_exceptions.md about the VF16Pad (O56). -/

namespace Sys2Proof.Machine

/-! ## The byte of the buttons -/

/-- The buttons of a pad in the order of the bit table of R300. -/
def Pad.buttons (p : Pad) : List Bool := [p.up, p.down, p.left, p.right, p.a, p.b, p.start, p.select]

/-- The buttons as bits 7:0 of the pad's word (R300). -/
def Pad.byte (p : Pad) : Byte := BitVec.ofBoolListLE p.buttons

theorem Pad.getLsbD_byte (p : Pad) (i : Nat) : p.byte.getLsbD i = p.buttons.getD i false :=
  BitVec.getLsbD_ofBoolListLE

theorem toNat_ofBoolListLE_cons (b : Bool) (bs : List Bool) :
    (BitVec.ofBoolListLE (b :: bs)).toNat = b.toNat + 2 * (BitVec.ofBoolListLE bs).toNat := by
  rw [BitVec.ofBoolListLE, BitVec.toNat_concat]
  omega

/-- Each button is worth twice the one before it. -/
theorem Pad.toNat_byte (p : Pad) :
    p.byte.toNat =
      p.up.toNat + 2 * p.down.toNat + 4 * p.left.toNat + 8 * p.right.toNat + 16 * p.a.toNat + 32 * p.b.toNat +
        64 * p.start.toNat + 128 * p.select.toNat := by
  have listed : p.byte.toNat = (BitVec.ofBoolListLE p.buttons).toNat := rfl
  have none_left : (BitVec.ofBoolListLE []).toNat = 0 := rfl
  rw [listed, Pad.buttons]
  simp only [toNat_ofBoolListLE_cons, none_left]
  omega

/-! ## The word of the pad -/

/-- The byte of the buttons stands below the one the source leaves open (decision D25). -/
theorem padWord_eq_wordOfBytes (p : Pad) (high : Byte) : padWord p high = wordOfBytes high p.byte := rfl

theorem getLsbD_padWord (p : Pad) (high : Byte) {i : Nat} (low : i < 8) :
    (padWord p high).getLsbD i = p.buttons.getD i false := by
  rw [padWord_eq_wordOfBytes, Laws.getLsbD_wordOfBytes, if_pos low, p.getLsbD_byte]

theorem padOfWord_padWord (p : Pad) (high : Byte) : padOfWord (padWord p high) = p := by
  simp only [padOfWord, getLsbD_padWord p high, Nat.reduceLT]
  rfl

theorem toNat_padWord_mod (p : Pad) (high : Byte) : (padWord p high).toNat % 256 = p.byte.toNat := by
  have low : lowByte (padWord p high) = p.byte := Laws.lowByte_wordOfBytes high p.byte
  rw [← low, lowByte_eq_setWidth, BitVec.toNat_setWidth]

/-- Settles O56. -/
theorem padBitsAreTheButtons : Obligations.PadBitsAreTheButtons := fun p high =>
  ⟨padOfWord_padWord p high, (toNat_padWord_mod p high).trans p.toNat_byte⟩

end Sys2Proof.Machine
end

section
/-! Settles the statement of spec/70_reset_and_hazards.md about the loader (O59). -/

namespace Sys2Proof.Machine

/-! ## The loader's copy -/

/-- The copy touches no address outside the image's. -/
theorem Memory.read_writeAll_outside (m : Memory) (start : Nat) (ws : List Word) {a : Nat}
    (outside : a < start ∨ start + ws.length ≤ a) : (m.writeAll start ws).read a = m.read a := by
  induction ws generalizing m start with
  | nil => rfl
  | cons w rest ih =>
    rw [List.length_cons] at outside
    rw [Memory.writeAll, ih _ _ (by omega), Memory.read_write_other _ _ _ _ (by omega)]

/-- Each word of the image stands where the copy put it: the words copied after it go to higher addresses. -/
theorem Memory.read_writeAll_inside (m : Memory) (start : Nat) (ws : List Word) {k : Nat} (inside : k < ws.length) :
    (m.writeAll start ws).read (start + k) = ws[k] := by
  induction ws generalizing m start k with
  | nil => exact absurd inside k.not_lt_zero
  | cons w rest ih =>
    rw [Memory.writeAll]
    cases k with
    | zero =>
      rw [Memory.read_writeAll_outside _ _ _ (by omega)]
      exact m.read_write_same start w
    | succ k =>
      have next : start + (k + 1) = start + 1 + k := by omega
      rw [next]
      exact ih _ _ (Nat.lt_of_succ_lt_succ inside)

/-! ## The bytes of a file -/

theorem wordsOfBytes_bytesOfWords (ws : List Word) : wordsOfBytes (bytesOfWords ws) = ws := by
  induction ws with
  | nil => rfl
  | cons w rest ih => rw [bytesOfWords, wordsOfBytes, ih, Laws.wordOfBytes_highByte_lowByte]

/-- A two-byte header field reads as the number it was written from (R332). -/
theorem bigEndian_bytesOfWord (w : Word) : bigEndian (bytesOfWord w) = w.toNat := by
  have high : (highByte w).toNat = w.toNat / 256 % 256 := by
    rw [highByte, BitVec.extractLsb'_toNat, Nat.shiftRight_eq_div_pow]
  have low : (lowByte w).toNat = w.toNat % 256 := by
    rw [lowByte, BitVec.extractLsb'_toNat, Nat.shiftRight_zero]
  have bound : w.toNat < 65536 := w.isLt
  simp only [bigEndian, bytesOfWord, List.foldl_cons, List.foldl_nil, high, low]
  omega

theorem afterMagic_append (magic rest : List Byte) : afterMagic magic (magic ++ rest) = some rest := by
  induction magic with
  | nil => rfl
  | cons b magic ih => rw [List.cons_append, afterMagic, if_pos rfl, ih]

/-- The two magics differ in their third byte. -/
theorem afterMagic_legacy_extended (rest : List Byte) : afterMagic legacyMagic (extendedMagic ++ rest) = none := rfl

/-! ## What a written file parses to -/

theorem parseImage_legacyFile (ws : List Word) : parseImage (legacyFile ws) = .ok ⟨0, ws, 0x1000⟩ := by
  simp only [parseImage, legacyFile, afterMagic_append, wordsOfBytes_bytesOfWords]
  rfl

/-- An extended file after its magic: version 1, the two bytes of the mapper, ROM start, ROM size, payload (R332). -/
def extendedBody (mapper : Byte) (start : Word) (ws : List Word) : List Byte :=
  1 :: 0 :: mapper :: (bytesOfWord start ++ (bytesOfWord (BitVec.ofNat 16 ws.length) ++ bytesOfWords ws))

theorem extendedFile_eq (mapper : Byte) (start : Word) (ws : List Word) :
    extendedFile mapper start ws = extendedMagic ++ extendedBody mapper start ws := rfl

/-- Both mappers of R332 allow an image the 4096 words of ROM (decision D28); the size field holds every length below
65536. -/
theorem parseExtended_extendedBody {mapper : Byte} {ws : List Word} (start : Word) (known : mapper.toNat ≤ 1)
    (short : ws.length < 65536) : parseExtended (extendedBody mapper start ws) = .ok ⟨start.toNat, ws, 0x1000⟩ := by
  have whole : ¬ (extendedBody mapper start ws).length < 5 + mapperBytes := by
    simp [extendedBody, bytesOfWord, mapperBytes, extHeaderLength]
  have version : (extendedBody mapper start ws).take 1 = [1] := rfl
  have mapperField : bigEndian (((extendedBody mapper start ws).drop 1).take mapperBytes) = mapper.toNat :=
    Nat.zero_add mapper.toNat
  have startField : bigEndian (((extendedBody mapper start ws).drop (1 + mapperBytes)).take 2) = start.toNat :=
    bigEndian_bytesOfWord start
  have sizeField : bigEndian (((extendedBody mapper start ws).drop (3 + mapperBytes)).take 2) = ws.length :=
    (bigEndian_bytesOfWord _).trans (Nat.mod_eq_of_lt short)
  have payload : wordsOfBytes ((extendedBody mapper start ws).drop (5 + mapperBytes)) = ws :=
    wordsOfBytes_bytesOfWords ws
  have mappers : mapper.toNat = 0 ∨ mapper.toNat = 1 := by omega
  simp only [parseExtended, if_neg whole, version, mapperField, startField, sizeField, payload, ne_eq, not_true_eq_false,
    if_false]
  obtain zero | one := mappers
  · rw [zero]; rfl
  · rw [one]; rfl

theorem parseImage_extendedFile {mapper : Byte} {ws : List Word} (start : Word) (known : mapper.toNat ≤ 1)
    (short : ws.length < 65536) : parseImage (extendedFile mapper start ws) = .ok ⟨start.toNat, ws, 0x1000⟩ := by
  simp only [extendedFile_eq, parseImage, afterMagic_legacy_extended, afterMagic_append,
    parseExtended_extendedBody start known short]

/-! ## The initial state -/

variable {file : List Byte} {image : RomImage}

theorem bootState_fits (parsed : parseImage file = .ok image) (fits : image.start + image.words.length ≤ image.limit) :
    bootState file = .ok (State.withImage image) := by
  simp only [bootState, parsed, if_pos fits]

theorem bootState_tooLarge (parsed : parseImage file = .ok image)
    (large : image.limit < image.start + image.words.length) : bootState file = .error .tooLarge := by
  simp only [bootState, parsed, if_neg (Nat.not_le_of_lt large)]

/-- The loader writes memory only (R330). -/
theorem State.withImage_eq (image : RomImage) :
    State.withImage image = { State.reset with mem := State.reset.mem.writeAll image.start image.words } := rfl

/-- An image that fits stands at its start, and the rest of the initial state is as after reset (R330, R334). -/
theorem bootState_places (parsed : parseImage file = .ok image)
    (fits : image.start + image.words.length ≤ image.limit) :
    ∃ s, bootState file = .ok s ∧ s = { State.reset with mem := s.mem } ∧
      (∀ (k : Nat) (h : k < image.words.length), s.mem.read (image.start + k) = image.words[k]) ∧
      (∀ a, a < image.start ∨ image.start + image.words.length ≤ a → s.mem.read a = State.reset.mem.read a) :=
  ⟨State.withImage image, bootState_fits parsed fits, State.withImage_eq image,
    fun _ => Memory.read_writeAll_inside _ _ _, fun _ => Memory.read_writeAll_outside _ _ _⟩

/-- Settles O59: each file parses to the image it was written from, which either fits in the 4096 words of ROM or not. -/
theorem loaderPlacesTheImage : Obligations.LoaderPlacesTheImage := by
  intro ws start mapper
  refine ⟨fun fits => ?_, fun large => ?_, fun fits known => ?_, fun large short known => ?_⟩
  · obtain ⟨s, boots, frame, inside, outside⟩ := bootState_places (parseImage_legacyFile ws) (by simpa using fits)
    simp only [Nat.zero_add] at inside outside
    exact ⟨s, boots, frame, inside, fun a above => outside a (.inr above)⟩
  · exact bootState_tooLarge (parseImage_legacyFile ws) (by simpa using large)
  · exact bootState_places (parseImage_extendedFile start known (by omega)) fits
  · exact bootState_tooLarge (parseImage_extendedFile start known short) large

end Sys2Proof.Machine
end
